-- ==== Sys2Proof/Config.lean ====
section
/-! DEFINITION. The OPEN parameters of the block (R7, D2): the capacities of IBUF and RXBUF. A model takes
each as an argument; here they are a record that State carries and no step changes (log 2). `none` is
unbounded, the default. There is no free value: the spec leaves no result undefined (R19). -/

namespace Sys2Proof.Config

/-- The two OPEN capacities of R7, in bytes; `none` is unbounded. -/
structure Params where
  /-- IBUF_CAP. -/
  ibufCap : Option Nat
  /-- RXBUF_CAP. -/
  rxbufCap : Option Nat
  deriving DecidableEq, Repr

/-- The default of R7: both unbounded. -/
def Params.default : Params := { ibufCap := none, rxbufCap := none }

/-- A length is within a capacity. -/
def fits (len : Nat) : Option Nat → Bool
  | none => true
  | some cap => decide (len ≤ cap)

/-- OBUF_CAP, fixed by the others: `max(2 * IBUF_CAP, RXBUF_CAP)` (R7). -/
def Params.obufCap (p : Params) : Option Nat :=
  match p.ibufCap, p.rxbufCap with
  | some i, some r => some (max (2 * i) r)
  | _, _ => none

/-- What R7 asks of a finite capacity: IBUF_CAP at least 8192, RXBUF_CAP at least 16394. -/
def Params.wellFormed (p : Params) : Bool :=
  (match p.ibufCap with | none => true | some i => decide (8192 ≤ i)) &&
  (match p.rxbufCap with | none => true | some r => decide (16394 ≤ r))

end Sys2Proof.Config
end

