-- ==== Sys2Proof/Word.lean ====
section
/-! DEFINITION. The word types of ZCB: the byte, which is the unit of every buffer (R51), and the
16-bit command word (R70). Nothing in ZCB is signed (R9). -/

namespace Sys2Proof

/-- A byte of a buffer or a register lane (R9, R51). -/
abbrev Byte := BitVec 8

/-- A command word `cw` (R70). -/
abbrev CommandWord := BitVec 16

end Sys2Proof
end

