-- ==== Sys2Proof/Syntax.lean ====
section
/-! DEFINITION. The instructions: one constructor per row of spec/opcode_table.json. The 42 commands
(R74) come first, then the row that stands for every illegal word (R90), then the eight wire patterns
the parsers recognise (R77 to R82). -/

namespace Sys2Proof

/-- One constructor per row of the opcode table. -/
inductive Instr where
  /-- NOP, 0x0000 (R100). -/
  | nop
  /-- RST, 0x0100 (R101). -/
  | rst
  /-- CFG sel, 0x0200 with the selector in bits 1:0 (R102). -/
  | cfg (sel : BitVec 2)
  /-- ZENC.RST, 0x0300 (R103). -/
  | zencRst
  /-- IB.CLR, 0x0800 (R105). -/
  | ibClr
  /-- IB.PUSH b, 0x0900 with the byte in bits 7:0 (R106). -/
  | ibPush (b : Byte)
  /-- IB.LDOB, 0x0A00 (R107). -/
  | ibLdob
  /-- ARG.SET0 b, 0x0C00 (R108). -/
  | argSet0 (b : Byte)
  /-- ARG.SET1 b, 0x0D00 (R110). -/
  | argSet1 (b : Byte)
  /-- ARG.SET2 b, 0x0E00 (R111). -/
  | argSet2 (b : Byte)
  /-- ARG.SET3 b, 0x0F00 (R112). -/
  | argSet3 (b : Byte)
  /-- PACK16, 0x1000 (R121). -/
  | pack16
  /-- UNPACK16, 0x1100 (R123). -/
  | unpack16
  /-- PACK32, 0x1200 (R125). -/
  | pack32
  /-- UNPACK32, 0x1300 (R127). -/
  | unpack32
  /-- HEX.ENC, 0x1400 (R129). -/
  | hexEnc
  /-- HEX.DEC, 0x1500 (R131). -/
  | hexDec
  /-- CRC16, 0x1800 (R145). -/
  | crc16
  /-- CRC32, 0x1900 (R150). -/
  | crc32
  /-- VFY16, 0x1A00 (R152). -/
  | vfy16
  /-- VFY32, 0x1B00 (R153). -/
  | vfy32
  /-- ZENC, 0x2000 (R167). -/
  | zenc
  /-- ZDEC, 0x2100 (R170). -/
  | zdec
  /-- ZCLS b, 0x2200 (R165). -/
  | zcls (b : Byte)
  /-- HDR.SET0 b, 0x2800 (R109). -/
  | hdrSet0 (b : Byte)
  /-- HDR.SET1 b, 0x2900 (R116). -/
  | hdrSet1 (b : Byte)
  /-- HDR.SET2 b, 0x2A00 (R117). -/
  | hdrSet2 (b : Byte)
  /-- HDR.SET3 b, 0x2B00 (R118). -/
  | hdrSet3 (b : Byte)
  /-- HDR.SET4 b, 0x2C00 (R119). -/
  | hdrSet4 (b : Byte)
  /-- TX.HEX sel, 0x3000 with the line-ending selector in bits 1:0 (R193). -/
  | txHex (sel : BitVec 2)
  /-- TX.BIN16, 0x3100 (R196). -/
  | txBin16
  /-- TX.BIN32, 0x3200 (R197). -/
  | txBin32
  /-- TX.SUB16 sel, 0x3400 with the terminator selector in bits 1:0 (R234). -/
  | txSub16 (sel : BitVec 2)
  /-- TX.SUB32 sel, 0x3500 with the terminator selector in bits 1:0 (R235). -/
  | txSub32 (sel : BitVec 2)
  /-- RX.PUSH b, 0x4000 (R114). -/
  | rxPush (b : Byte)
  /-- RX.CLR, 0x4100 (R115). -/
  | rxClr
  /-- RX.TRIM, 0x4200 (R207). -/
  | rxTrim
  /-- RX.HDR, 0x4300 (R209). -/
  | rxHdr
  /-- RX.SUB16, 0x4400 (R240). -/
  | rxSub16
  /-- RX.SUB32, 0x4500 (R245). -/
  | rxSub32
  /-- RX.SCAN, 0x4600 (R238). -/
  | rxScan
  /-- RX.SPLICE n, 0x4700 with the count in bits 7:0 (R173). -/
  | rxSplice (n : Byte)
  /-- The row `(illegal)`: a word that is no command (R90). -/
  | illegal (cw : CommandWord)
  /-- The wire pattern `2A 2A 18 42`, the hex prefix (R77). -/
  | wirePfxHex
  /-- The wire pattern `2A 18 41`, the binary-16 prefix (R79). -/
  | wirePfxBin16
  /-- The wire pattern `2A 18 43`, the binary-32 prefix (R80). -/
  | wirePfxBin32
  /-- The wire pattern `0D 0A 11`, hex line ending 0 (R78). -/
  | wireEol0
  /-- The wire pattern `0D 0A`, hex line ending 1 (R78). -/
  | wireEol1
  /-- The wire pattern `0A`, hex line ending 2 (R78). -/
  | wireEol2
  /-- The wire pattern `18 t` with `t = 0x68 + k`, the terminator marker (R81). -/
  | wireTerm (k : BitVec 2)
  /-- The wire pattern `18 f` with `f & 0x60 = 0x40`, the canonical escape pair (R82). -/
  | wireEsc (f : Byte)
  deriving DecidableEq, Repr

/-- What an instruction is encoded as. A command is one 16-bit word that the host issues (R70); a wire
pattern is a sequence of bytes, first byte first, that arrives on the line (R52). -/
inductive Code where
  | word (cw : CommandWord)
  | wire (bytes : List Byte)
  deriving DecidableEq, Repr

/-- Why the decoder rejects a code: the only codes without an instruction are byte sequences that are
none of the eight wire patterns. Every command word has an instruction (R71). -/
inductive DecodeError where
  | notAWirePattern (bytes : List Byte)
  deriving DecidableEq, Repr

end Sys2Proof
end

