-- ==== Sys2Proof/Machine/State.lean ====
section
/-! DEFINITION. The state of ZCB as plain data. `Block` is the architectural state: the tuple of R20, these fields
and no others. `State` is what the one-argument step of the host's form runs on: a block, the parameters it is
built with (log 2) and what the host will present to it (log 1). The machine after reset (R42). Why a step can stop:
never by a fault (R13, R19). -/

namespace Sys2Proof.Machine

/-- A header `hdr5 = [type, p0, p1, p2, p3]` (R190): the register groups HDR and RXH. -/
structure Header where
  /-- `[0]`, the type number. -/
  b0 : Byte
  /-- `[1]`, the first payload byte. -/
  b1 : Byte
  /-- `[2]`, the second payload byte. -/
  b2 : Byte
  /-- `[3]`, the third payload byte. -/
  b3 : Byte
  /-- `[4]`, the fourth payload byte. -/
  b4 : Byte
  deriving DecidableEq, Repr

/-- The five bytes in order (R190). -/
def Header.bytes (h : Header) : List Byte := [h.b0, h.b1, h.b2, h.b3, h.b4]

/-- Four CRC bytes in wire order (R32): the register groups CRCX and CRCG. -/
structure CrcBytes where
  /-- Byte `[0]`. -/
  b0 : Byte
  /-- Byte `[1]`. -/
  b1 : Byte
  /-- Byte `[2]`, zero after a CRC-16 mismatch. -/
  b2 : Byte
  /-- Byte `[3]`, zero after a CRC-16 mismatch. -/
  b3 : Byte
  deriving DecidableEq, Repr

/-- What the host can do to the block between two commands (R18): present a code (issue a command word,
R71, or feed a burst of bytes that arrived on the line, R96 and R270), or assert the reset input (R290). -/
inductive HostAction where
  | present (c : Code)
  | resetInput
  deriving DecidableEq, Repr

/-- The architectural state of ZCB, "exactly the tuple" of R20: "these fields and no others". What R21 says is not
state (the capacities, the tables, the command word, the lengths) is not here. -/
structure Block where
  /-- CFG: bit 0 ECC, bit 1 TURBO (R28). -/
  cfg : BitVec 2
  /-- LASTCODE, the encoder's previous source byte; hidden from the host (R40). -/
  lastcode : Byte
  /-- HDR, the header to transmit (R23). -/
  hdr : Header
  /-- ARG, integer operand and result (R22). -/
  arg : BitVec 32
  /-- RXH, the last header parsed (R24). -/
  rxh : Header
  /-- HFMT, framing of the last header parsed (R30). -/
  hfmt : BitVec 2
  /-- SUBT, terminator byte of the last subpacket (R31). -/
  subt : Byte
  /-- CRCX, expected CRC bytes of the last mismatch (R32). -/
  crcx : CrcBytes
  /-- CRCG, received CRC bytes of the last mismatch (R32). -/
  crcg : CrcBytes
  /-- CRCK, width of the last mismatch (R32). -/
  crck : BitVec 1
  /-- STATUS, outcome of the last command (R29). -/
  status : Byte
  /-- IBUF, the operand buffer (R36). -/
  ibuf : List Byte
  /-- OBUF, the result buffer (R37). -/
  obuf : List Byte
  /-- RXBUF, the receive buffer (R35). -/
  rxbuf : List Byte
  /-- TXOUT, the transmit trace (R38). -/
  txout : List Byte
  deriving DecidableEq, Repr

/-- The block with what the host's form of `step : State → Outcome` has no argument for: the parameters and the
input, both outside the architectural state (R21, R71; log 1, log 2). -/
structure State extends Block where
  /-- Not state of the block: the OPEN parameters of R7 (R21, log 2). -/
  params : Config.Params
  /-- Not state of the block: the inputs of the coming steps, first to take first (R71, log 1). -/
  pending : List HostAction
  deriving DecidableEq, Repr

/-- The all-zero header (R42). -/
def Header.zero : Header := { b0 := 0, b1 := 0, b2 := 0, b3 := 0, b4 := 0 }

/-- The all-zero CRC registers (R42). -/
def CrcBytes.zero : CrcBytes := { b0 := 0, b1 := 0, b2 := 0, b3 := 0 }

/-- The block right after reset: R42, field by field. -/
def Block.reset : Block where
  cfg := 0
  lastcode := 0x00
  hdr := Header.zero
  arg := 0
  rxh := Header.zero
  hfmt := 0
  subt := 0x00
  crcx := CrcBytes.zero
  crcg := CrcBytes.zero
  crck := 0
  status := 0x00
  ibuf := []
  obuf := []
  rxbuf := []
  txout := []

/-- The machine right after reset: the block at its reset values, the default parameters (R7), no input yet. -/
def State.reset : State where
  toBlock := Block.reset
  params := Config.Params.default
  pending := []

/-- Faults: none. "Every command is total on every state and every operand" (R19) and errors are values in
STATUS (R260), so nothing raises one and the type has no constructor. -/
inductive Fault where
  deriving DecidableEq, Repr

/-- Refusals: only the one the host's form asks for; no command of the model answers with it. -/
inductive Refusal where
  /-- Raised by an arm of `exec` whose instruction has no meaning yet; there is none. Safe: it stops. -/
  | notModelled (mnemonic : String)
  deriving DecidableEq, Repr

/-- What a meaning answers. -/
abbrev Outcome := Host.Outcome State Fault Refusal

end Sys2Proof.Machine
end

