-- ==== Sys2Proof/Machine/Flags.lean ====
section
/-! DEFINITION. STATUS, the only flag ZCB has (R29): the eleven outcome codes of R261. -/

namespace Sys2Proof.Machine

/-- The outcomes a command can end in (R261). -/
inductive StatusCode where
  /-- The command did what its rule says. -/
  | ok
  /-- Not enough data yet; not an error (R265). -/
  | incomplete
  /-- E_ILLEGAL: the word is no command (R262). -/
  | eIllegal
  /-- E_RANGE: `ARG > 0xFFFF` in PACK16. -/
  | eRange
  /-- E_CRC: a CRC mismatch. -/
  | eCrc
  /-- E_UNSUPPORTED: a header type above 11. -/
  | eUnsupported
  /-- E_HEXFMT: malformed hex framing or hex digits. -/
  | eHexfmt
  /-- E_NOFRAME: RXBUF does not start with a frame. -/
  | eNoframe
  /-- E_BADESC: a ZDLE with no follower. -/
  | eBadesc
  /-- E_OVERFLOW: a finite buffer is full. -/
  | eOverflow
  /-- E_LEN: an operand in IBUF has the wrong length. -/
  | eLen
  deriving DecidableEq, Repr

/-- The code written to STATUS (R261). -/
def StatusCode.code : StatusCode → Byte
  | .ok => 0x00
  | .incomplete => 0x01
  | .eIllegal => 0x80
  | .eRange => 0x81
  | .eCrc => 0x82
  | .eUnsupported => 0x83
  | .eHexfmt => 0x84
  | .eNoframe => 0x85
  | .eBadesc => 0x86
  | .eOverflow => 0x87
  | .eLen => 0x88

/-- "A code of 0x80 or above is an error" (R260). -/
def isErrorCode (b : Byte) : Bool := decide (0x80 ≤ b)

end Sys2Proof.Machine
end

