-- ==== Sys2Proof/WellFormed.lean ====
section
/-! DEFINITION. Which instruction terms stand for an encoding: the operand checks of the opcode table.
The illegal words are written out here from R90 alone, independently of the decoder. -/

namespace Sys2Proof

/-- The opcodes of the Z-format commands (R74): their immediate must be zero. -/
def opcodesZ : List Nat :=
  [0x00, 0x01, 0x03, 0x08, 0x0A, 0x10, 0x11, 0x12, 0x13, 0x14, 0x15, 0x18, 0x19, 0x1A, 0x1B,
   0x20, 0x21, 0x31, 0x32, 0x41, 0x42, 0x43, 0x44, 0x45, 0x46]

/-- The opcodes of the B-format commands (R74): any immediate. -/
def opcodesB : List Nat :=
  [0x09, 0x0C, 0x0D, 0x0E, 0x0F, 0x22, 0x28, 0x29, 0x2A, 0x2B, 0x2C, 0x40, 0x47]

/-- The opcodes of the S-format commands (R74): immediate bits 7:2 must be zero. -/
def opcodesS : List Nat := [0x02, 0x30, 0x34, 0x35]

/-- R90: (a) an opcode outside the table, (b) Z format with a non-zero immediate, (c) S format with
immediate bits 7:2 non-zero, (d) TX.HEX with selector 3. -/
def illegalWord (cw : CommandWord) : Bool :=
  let op := cw.toNat / 256
  let imm := cw.toNat % 256
  if op ∈ opcodesZ then imm != 0
  else if op ∈ opcodesB then false
  else if op ∈ opcodesS then imm / 4 != 0 || (op == 0x30 && imm == 3)
  else true

/-- A term of `Instr` that some encoding stands for: TX.HEX has no selector 3 (R90 d), the `(illegal)`
row holds an illegal word only, and a wire escape pair has a canonical follower (R82, R93). -/
def Instr.wellFormed : Instr → Bool
  | .txHex sel => sel != 3
  | .illegal cw => illegalWord cw
  | .wireEsc f => f &&& 0x60 == 0x40
  | _ => true

/-- `i` is one of the 42 commands of R74: not the `(illegal)` row and not a wire pattern. -/
def Instr.isCommand : Instr → Bool
  | .illegal _ => false
  | .wirePfxHex | .wirePfxBin16 | .wirePfxBin32 => false
  | .wireEol0 | .wireEol1 | .wireEol2 => false
  | .wireTerm _ | .wireEsc _ => false
  | _ => true

end Sys2Proof
end

