-- ==== Sys2Proof/Decode.lean ====
section
/-! DEFINITION. The decoder and, after it, the encoder. Command words are decoded by opcode and format
(R70 to R74, R90); every word has an instruction, `illegal` where R90 says so. Byte sequences are
recognised as one of the eight wire patterns (R77 to R82) or rejected by name. -/

namespace Sys2Proof

/-! ### The constants of the wire (R10, R15) -/

/-- The escape marker ZDLE (R15). -/
def zdle : Byte := 0x18

/-- `PFX_HEX` (R15, R77). -/
def pfxHex : List Byte := [0x2A, 0x2A, 0x18, 0x42]

/-- `PFX_B16` (R15, R79). -/
def pfxBin16 : List Byte := [0x2A, 0x18, 0x41]

/-- `PFX_B32` (R15, R80). -/
def pfxBin32 : List Byte := [0x2A, 0x18, 0x43]

/-- `EOL[0]`: CR LF XON (R78, R192). -/
def eolCrLfXon : List Byte := [0x0D, 0x0A, 0x11]

/-- `EOL[1]`: CR LF (R78, R192). -/
def eolCrLf : List Byte := [0x0D, 0x0A]

/-- `EOL[2]`: LF only (R78, R192). -/
def eolLf : List Byte := [0x0A]

/-- The terminator byte `t = 0x68 + sel` (R73, R81). -/
def terminatorByte (sel : BitVec 2) : Byte := 0x68 + sel.setWidth 8

/-- A terminator byte, `TERM_LO` to `TERM_HI` (R15, R81). -/
def isTerminator (b : Byte) : Bool := decide (0x68 ≤ b) && decide (b ≤ 0x6B)

/-! ### Command words -/

/-- `op = cw[15:8]` (R70). -/
def opcode (cw : CommandWord) : Byte := cw.extractLsb' 8 8

/-- `imm = cw[7:0]` (R70). -/
def immediate (cw : CommandWord) : Byte := cw.extractLsb' 0 8

/-- `sel = imm[1:0]` (R72). -/
def selector (cw : CommandWord) : BitVec 2 := cw.extractLsb' 0 2

/-- Format Z (R72): the immediate must be 0x00, else the word is illegal (R90 b). -/
def formatZ (cw : CommandWord) (i : Instr) : Instr :=
  if immediate cw = 0 then i else .illegal cw

/-- Format B (R72, R73): the immediate is the byte operand, any value. -/
def formatB (cw : CommandWord) (i : Byte → Instr) : Instr := i (immediate cw)

/-- Format S (R72, R73): bits 7:2 of the immediate must be zero, else the word is illegal (R90 c). -/
def formatS (cw : CommandWord) (i : BitVec 2 → Instr) : Instr :=
  if cw.extractLsb' 2 6 = 0#6 then i (selector cw) else .illegal cw

/-- TX.HEX: format S, and selector 3 is illegal as well (R90 d). -/
def formatTxHex (cw : CommandWord) : Instr :=
  if selector cw = 3 then .illegal cw else formatS cw .txHex

/-- The opcode map of R74; every other opcode is illegal (R90 a). Total on all 65536 words (R71). -/
def decodeCommand (cw : CommandWord) : Instr :=
  match (opcode cw).toNat with
  | 0x00 => formatZ cw .nop
  | 0x01 => formatZ cw .rst
  | 0x02 => formatS cw .cfg
  | 0x03 => formatZ cw .zencRst
  | 0x08 => formatZ cw .ibClr
  | 0x09 => formatB cw .ibPush
  | 0x0A => formatZ cw .ibLdob
  | 0x0C => formatB cw .argSet0
  | 0x0D => formatB cw .argSet1
  | 0x0E => formatB cw .argSet2
  | 0x0F => formatB cw .argSet3
  | 0x10 => formatZ cw .pack16
  | 0x11 => formatZ cw .unpack16
  | 0x12 => formatZ cw .pack32
  | 0x13 => formatZ cw .unpack32
  | 0x14 => formatZ cw .hexEnc
  | 0x15 => formatZ cw .hexDec
  | 0x18 => formatZ cw .crc16
  | 0x19 => formatZ cw .crc32
  | 0x1A => formatZ cw .vfy16
  | 0x1B => formatZ cw .vfy32
  | 0x20 => formatZ cw .zenc
  | 0x21 => formatZ cw .zdec
  | 0x22 => formatB cw .zcls
  | 0x28 => formatB cw .hdrSet0
  | 0x29 => formatB cw .hdrSet1
  | 0x2A => formatB cw .hdrSet2
  | 0x2B => formatB cw .hdrSet3
  | 0x2C => formatB cw .hdrSet4
  | 0x30 => formatTxHex cw
  | 0x31 => formatZ cw .txBin16
  | 0x32 => formatZ cw .txBin32
  | 0x34 => formatS cw .txSub16
  | 0x35 => formatS cw .txSub32
  | 0x40 => formatB cw .rxPush
  | 0x41 => formatZ cw .rxClr
  | 0x42 => formatZ cw .rxTrim
  | 0x43 => formatZ cw .rxHdr
  | 0x44 => formatZ cw .rxSub16
  | 0x45 => formatZ cw .rxSub32
  | 0x46 => formatZ cw .rxScan
  | 0x47 => formatB cw .rxSplice
  | _ => .illegal cw

/-! ### Wire patterns -/

/-- A raw pair `18 f`: a terminator marker (R81), a canonical escape pair (R82, R93), or neither. -/
def decodePair (f : Byte) : Option Instr :=
  if isTerminator f then some (.wireTerm (f.extractLsb' 0 2))
  else if f &&& 0x60 = 0x40 then some (.wireEsc f)
  else none

/-- The wire rows of the opcode table: the whole byte sequence is one pattern, or there is none. -/
def decodeWire (bytes : List Byte) : Option Instr :=
  if bytes = pfxHex then some .wirePfxHex
  else if bytes = pfxBin16 then some .wirePfxBin16
  else if bytes = pfxBin32 then some .wirePfxBin32
  else if bytes = eolCrLfXon then some .wireEol0
  else if bytes = eolCrLf then some .wireEol1
  else if bytes = eolLf then some .wireEol2
  else match bytes with
    | [z, f] => if z = zdle then decodePair f else none
    | _ => none

/-- The decoder: total, and it rejects by name what is no row of the table. -/
def decode : Code → Except DecodeError Instr
  | .word cw => .ok (decodeCommand cw)
  | .wire bytes =>
    match decodeWire bytes with
    | some i => .ok i
    | none => .error (.notAWirePattern bytes)

/-! ### The encoder -/

/-- A command word from its opcode and its immediate (R70). -/
def commandWord (op imm : Byte) : CommandWord := op ++ imm

/-- A Z-format word: immediate zero (R72). -/
def encodeZ (op : Byte) : Code := .word (commandWord op 0)

/-- A B-format word (R72). -/
def encodeB (op b : Byte) : Code := .word (commandWord op b)

/-- An S-format word: bits 7:2 of the immediate zero (R72). -/
def encodeS (op : Byte) (sel : BitVec 2) : Code := .word (commandWord op (0#6 ++ sel))

/-- The encoding of every row, from the table's `match` column and the formats of R72. -/
def encode : Instr → Code
  | .nop => encodeZ 0x00
  | .rst => encodeZ 0x01
  | .cfg sel => encodeS 0x02 sel
  | .zencRst => encodeZ 0x03
  | .ibClr => encodeZ 0x08
  | .ibPush b => encodeB 0x09 b
  | .ibLdob => encodeZ 0x0A
  | .argSet0 b => encodeB 0x0C b
  | .argSet1 b => encodeB 0x0D b
  | .argSet2 b => encodeB 0x0E b
  | .argSet3 b => encodeB 0x0F b
  | .pack16 => encodeZ 0x10
  | .unpack16 => encodeZ 0x11
  | .pack32 => encodeZ 0x12
  | .unpack32 => encodeZ 0x13
  | .hexEnc => encodeZ 0x14
  | .hexDec => encodeZ 0x15
  | .crc16 => encodeZ 0x18
  | .crc32 => encodeZ 0x19
  | .vfy16 => encodeZ 0x1A
  | .vfy32 => encodeZ 0x1B
  | .zenc => encodeZ 0x20
  | .zdec => encodeZ 0x21
  | .zcls b => encodeB 0x22 b
  | .hdrSet0 b => encodeB 0x28 b
  | .hdrSet1 b => encodeB 0x29 b
  | .hdrSet2 b => encodeB 0x2A b
  | .hdrSet3 b => encodeB 0x2B b
  | .hdrSet4 b => encodeB 0x2C b
  | .txHex sel => encodeS 0x30 sel
  | .txBin16 => encodeZ 0x31
  | .txBin32 => encodeZ 0x32
  | .txSub16 sel => encodeS 0x34 sel
  | .txSub32 sel => encodeS 0x35 sel
  | .rxPush b => encodeB 0x40 b
  | .rxClr => encodeZ 0x41
  | .rxTrim => encodeZ 0x42
  | .rxHdr => encodeZ 0x43
  | .rxSub16 => encodeZ 0x44
  | .rxSub32 => encodeZ 0x45
  | .rxScan => encodeZ 0x46
  | .rxSplice n => encodeB 0x47 n
  | .illegal cw => .word cw
  | .wirePfxHex => .wire pfxHex
  | .wirePfxBin16 => .wire pfxBin16
  | .wirePfxBin32 => .wire pfxBin32
  | .wireEol0 => .wire eolCrLfXon
  | .wireEol1 => .wire eolCrLf
  | .wireEol2 => .wire eolLf
  | .wireTerm k => .wire [zdle, terminatorByte k]
  | .wireEsc f => .wire [zdle, f]

/-! ### The numbers of the opcode table -/

/-- The `n` bytes of a number, most significant first: the table reads a wire pattern's bytes "as one
big-endian number" (30_encoding.md, head). -/
def bytesOfNumber : Nat → Nat → List Byte
  | 0, _ => []
  | n + 1, w => bytesOfNumber n (w / 256) ++ [BitVec.ofNat 8 w]

/-- The code an opcode-table number of `nbits` bits stands for. A 16-bit number that is a command word is
that command. Every other number whose bytes are a wire pattern is that pattern. Of the rest, a 16-bit
number is an illegal command word and a number of another width is a byte sequence (log 4). -/
def tableCode (nbits w : Nat) : Code :=
  let bytes := bytesOfNumber (nbits / 8) w
  if nbits = 16 then
    if illegalWord (BitVec.ofNat 16 w) && (decodeWire bytes).isSome then .wire bytes
    else .word (BitVec.ofNat 16 w)
  else .wire bytes

/-- The instruction the decoder reads from an opcode-table number of `nbits` bits. -/
def decodeTableWord (nbits w : Nat) : Option Instr :=
  match decode (tableCode nbits w) with
  | .ok i => some i
  | .error _ => none

end Sys2Proof
end

