-- ==== Sys2Proof/Machine/Operands.lean ====
section
/-! DEFINITION. Operand assembly: the lanes of ARG (R54), the two configuration bits (R28), the header to
send (R190), the line endings (R192), the count of RX.SPLICE (R73), and IBUF read as data and CRC (R152). -/

namespace Sys2Proof.Machine

/-- ARG.SETn writes bits `8n+7` down to `8n` of ARG and keeps the others (R54). -/
def setLane (n : Nat) (arg : BitVec 32) (b : Byte) : BitVec 32 :=
  (arg &&& ~~~(0xFF#32 <<< (8 * n))) ||| (b.setWidth 32 <<< (8 * n))

/-- `E = CFG[0]`, escape_ctrl_chars (R28, R160). -/
def ecc (cfg : BitVec 2) : Bool := cfg.getLsbD 0

/-- `T = CFG[1]`, turbo_escape (R28, R160). -/
def turbo (cfg : BitVec 2) : Bool := cfg.getLsbD 1

/-- `EOL[eol]` (R192); selector 3 "does not exist". -/
def eolBytes (eol : BitVec 2) : Option (List Byte) :=
  match eol.toNat with
  | 0 => some eolCrLfXon
  | 1 => some eolCrLf
  | 2 => some eolLf
  | _ => none

/-- The count `n = zext(imm)` of RX.SPLICE, 0 to 255 (R73). -/
def spliceCount (imm : Byte) : Nat := imm.toNat

/-- IBUF read as `data ++ got` with `got` its last `n` bytes; none when it is shorter (R152, R153). -/
def splitTail (n : Nat) (ibuf : List Byte) : Option (List Byte × List Byte) :=
  if ibuf.length < n then none
  else some (ibuf.take (ibuf.length - n), ibuf.drop (ibuf.length - n))

/-- Up to four CRC bytes as register bytes, the missing ones 0 (R32). -/
def crcRegister (bytes : List Byte) : CrcBytes where
  b0 := bytes.getD 0 0
  b1 := bytes.getD 1 0
  b2 := bytes.getD 2 0
  b3 := bytes.getD 3 0

/-- The first five bytes of a sequence as a header register group (R190). -/
def headerOf (bytes : List Byte) : Header where
  b0 := bytes.getD 0 0
  b1 := bytes.getD 1 0
  b2 := bytes.getD 2 0
  b3 := bytes.getD 3 0
  b4 := bytes.getD 4 0

end Sys2Proof.Machine
end

