-- ==== Sys2Proof/Machine/Ops.lean ====
section
/-! DEFINITION. The named operations over registers and buffers. Buffers change in three forms only: replace
whole, append, consume from the front (R12). Ending a command writes STATUS (R13, R260); raising an error
("trap entry", R268) is that write, and for E_CRC the three diagnostic registers as well (R32). There is no
return from an error (R269). -/

namespace Sys2Proof.Machine

/-! ### Registers -/

/-- `CFG <- v`. -/
def State.setCfg (s : State) (v : BitVec 2) : State := { s with cfg := v }

/-- `LASTCODE <- v`. -/
def State.setLastcode (s : State) (v : Byte) : State := { s with lastcode := v }

/-- `HDR[0..4] <- v`. -/
def State.setHdr (s : State) (v : Header) : State := { s with hdr := v }

/-- `ARG <- v`. -/
def State.setArg (s : State) (v : BitVec 32) : State := { s with arg := v }

/-- `RXH[0..4] <- h` and `HFMT <- f`, together (R24, R30). -/
def State.setParsedHeader (s : State) (h : Header) (f : BitVec 2) : State :=
  { s with rxh := h, hfmt := f }

/-- `SUBT <- t`. -/
def State.setSubt (s : State) (t : Byte) : State := { s with subt := t }

/-! ### Buffers -/

/-- `IBUF <- v`. -/
def State.setIbuf (s : State) (v : List Byte) : State := { s with ibuf := v }

/-- `OBUF <- v` (R37). -/
def State.setObuf (s : State) (v : List Byte) : State := { s with obuf := v }

/-- `RXBUF <- v`. -/
def State.setRxbuf (s : State) (v : List Byte) : State := { s with rxbuf := v }

/-- `RXBUF <- RXBUF[k..)`, "consume" (R12). -/
def State.consume (s : State) (k : Nat) : State := s.setRxbuf (s.rxbuf.drop k)

/-- `TXOUT <- TXOUT ++ bytes` (R38). -/
def State.transmit (s : State) (bytes : List Byte) : State := { s with txout := s.txout ++ bytes }

/-! ### Ending a command -/

/-- The last act of every command: write STATUS (R29, R260). -/
def State.finish (s : State) (c : StatusCode) : State := { s with status := c.code }

/-- `done(OK)` (R13). -/
def State.done (s : State) : State := s.finish .ok

/-- `done(INCOMPLETE)`: STATUS and nothing else (R13, R265). -/
def State.incomplete (s : State) : State := s.finish .incomplete

/-- `raise E`: the entry to an error is the write of STATUS (R13, R268). -/
def State.raise (s : State) (e : StatusCode) : State := s.finish e

/-- The width of a CRC: 16 or 32 bits. -/
inductive CrcWidth where
  | w16
  | w32
  deriving DecidableEq, Repr

/-- The bytes a CRC of that width has. -/
def CrcWidth.bytes : CrcWidth → Nat
  | .w16 => 2
  | .w32 => 4

/-- The value of CRCK for a mismatch of that width (R32). -/
def CrcWidth.crck : CrcWidth → BitVec 1
  | .w16 => 0
  | .w32 => 1

/-- `raise E_CRC`: CRCX gets the recomputed bytes, CRCG the received ones, CRCK the width, the unused bytes 0,
and STATUS the code (R32, R268). -/
def State.raiseCrc (s : State) (w : CrcWidth) (expected received : List Byte) : State :=
  { s with crcx := crcRegister expected, crcg := crcRegister received, crck := w.crck }.raise .eCrc

/-! ### Capacities -/

/-- `len = CAP`, the test of IB.PUSH and RX.PUSH as printed (R60, R106, R114; DEDUCED for a longer buffer, log 8). -/
def isFull (len : Nat) (cap : Option Nat) : Bool := decide (cap = some len)

/-- `len > CAP`, the test of IB.LDOB (R60, R107). -/
def exceeds (len : Nat) : Option Nat → Bool
  | none => false
  | some cap => decide (cap < len)

/-! ### Arrival of a byte -/

/-- The flow-control set `FC` (R113): XON, XOFF and their high-bit variants. -/
def isFlowControl (b : Byte) : Bool := b == 0x11 || b == 0x13 || b == 0x91 || b == 0x93

/-- One byte as it arrived from the line (R114): dropped, refused by a full buffer, or appended. The drop is
tested before the overflow (R267). -/
def pushReceived (b : Byte) (s : State) : State :=
  if isFlowControl b then s.done
  else if isFull s.rxbuf.length s.params.rxbufCap then s.raise .eOverflow
  else (s.setRxbuf (s.rxbuf ++ [b])).done

/-- RX.FEED of bytes: one RX.PUSH each, in order; STATUS is that of the last (R96). -/
def feed (bytes : List Byte) (s : State) : State := bytes.foldl (fun t b => pushReceived b t) s

/-! ### Reset -/

/-- The block, every field of R20, takes its reset value; what is not state of the block (the parameters, R21; the
inputs still to come, R71) is as before (R101, R290, log 1). -/
def State.resetBlock (s : State) : State :=
  { s with toBlock := Block.reset }

end Sys2Proof.Machine
end

