-- ==== Sys2Proof/Machine/Buffers.lean ====
section
/-! DEFINITION. The buffer commands: IBUF (R105 to R107) and RXBUF (R114, R115). -/

namespace Sys2Proof.Machine

/-- IB.CLR (R105). -/
def execIbClr (s : State) : Outcome := .next (s.setIbuf []).done

/-- IB.PUSH b (R106): no filter; a full IBUF refuses. -/
def execIbPush (b : Byte) (s : State) : Outcome := 
  if isFull s.ibuf.length s.params.ibufCap then .next (s.raise .eOverflow)
  else .next (s.setIbuf (s.ibuf ++ [b])).done

/-- IB.LDOB (R107): refused when OBUF does not fit. -/
def execIbLdob (s : State) : Outcome := 
  if exceeds s.obuf.length s.params.ibufCap then .next (s.raise .eOverflow)
  else .next (s.setIbuf s.obuf).done

/-- RX.PUSH b (R114). -/
def execRxPush (b : Byte) (s : State) : Outcome := .next (pushReceived b s)

/-- RX.CLR (R115). -/
def execRxClr (s : State) : Outcome := .next (s.setRxbuf []).done

end Sys2Proof.Machine
end

