-- ==== Sys2Proof/Machine/Codec.lean ====
section
/-! DEFINITION. The codec primitives as pure functions: pack, unpack, hex digits (R120 to R133). -/

namespace Sys2Proof.Machine

/-- `pack_u16_be(v)` (R120): most significant byte first; none is OUT_OF_RANGE. -/
def packU16be (v : Nat) : Option (List Byte) :=
  if 0xFFFF < v then none else some [BitVec.ofNat 8 (v / 256), BitVec.ofNat 8 v]

/-- `unpack_u16_be(s)` (R122); none is BAD_LEN. -/
def unpackU16be : List Byte → Option Nat
  | [a, b] => some (a.toNat * 256 + b.toNat)
  | _ => none

/-- `pack_u32_le(v)` (R124): least significant byte first. -/
def packU32le (v : BitVec 32) : List Byte :=
  [v.extractLsb' 0 8, v.extractLsb' 8 8, v.extractLsb' 16 8, v.extractLsb' 24 8]

/-- `unpack_u32_le(s)` (R126); none is BAD_LEN. -/
def unpackU32le : List Byte → Option Nat
  | [a, b, c, d] => some (a.toNat + b.toNat * 2 ^ 8 + c.toNat * 2 ^ 16 + d.toNat * 2 ^ 24)
  | _ => none

/-- The 16-entry table HEXDIGIT (R128): `0` to `9`, `a` to `f`. -/
def hexDigits : List Byte :=
  [0x30, 0x31, 0x32, 0x33, 0x34, 0x35, 0x36, 0x37, 0x38, 0x39, 0x61, 0x62, 0x63, 0x64, 0x65, 0x66]

/-- `HEXDIGIT[n]` (R128). -/
def hexDigit (n : BitVec 4) : Byte := hexDigits.getD n.toNat 0

/-- `hex_enc(s)` (R128): high nibble first, lower case. -/
def hexEncode : List Byte → List Byte
  | [] => []
  | b :: s => hexDigit (b.extractLsb' 4 4) :: hexDigit (b.extractLsb' 0 4) :: hexEncode s

/-- `val(c)` (R130): defined on `0` to `9` and lower-case `a` to `f` only. -/
def hexValue (c : Byte) : Option Nat :=
  if 0x30 ≤ c ∧ c ≤ 0x39 then some (c.toNat - 0x30)
  else if 0x61 ≤ c ∧ c ≤ 0x66 then some (c.toNat - 0x61 + 10)
  else none

/-- `hex_dec(h)` (R130); none is BAD_HEX, for an odd length or a byte that is no digit. -/
def hexDecode : List Byte → Option (List Byte)
  | [] => some []
  | [_] => none
  | c :: d :: h =>
    match hexValue c, hexValue d, hexDecode h with
    | some x, some y, some rest => some (BitVec.ofNat 8 (x * 16 + y) :: rest)
    | _, _, _ => none

end Sys2Proof.Machine
end

