-- ==== Sys2Proof/Machine/CrcEngine.lean ====
section
/-! DEFINITION. The CRC engine as pure functions (R140 to R151): the two tables, the two CRCs as values and as
bytes, and the byte-for-byte check. -/

namespace Sys2Proof.Machine

/-! ### CRC-16 -/

/-- One shift of the table construction of R141: left, most significant bit first, polynomial 0x1021. -/
def t16Shift (r : BitVec 16) : BitVec 16 :=
  if r.getLsbD 15 then (r <<< 1) ^^^ 0x1021 else r <<< 1

/-- `T16[i]` (R141): eight shifts of `i << 8`. -/
def t16 (i : Byte) : BitVec 16 :=
  t16Shift (t16Shift (t16Shift (t16Shift (t16Shift (t16Shift (t16Shift (t16Shift (i.setWidth 16 <<< 8))))))))

/-- One byte of R142: the byte goes into the low byte of the shifted accumulator. -/
def crc16Step (acc : BitVec 16) (b : Byte) : BitVec 16 :=
  t16 (acc.extractLsb' 8 8) ^^^ (acc <<< 8) ^^^ b.setWidth 16

/-- `crc16v(s)` (R142): from 0x0000 over `s ++ [0x00, 0x00]`. -/
def crc16v (s : List Byte) : BitVec 16 := (s ++ [0x00, 0x00]).foldl crc16Step 0x0000

/-- A 16-bit value as two bytes, high byte first: `pack_u16_be` where it cannot be out of range (R144). -/
def bytes16be (v : BitVec 16) : List Byte := [v.extractLsb' 8 8, v.extractLsb' 0 8]

/-- `crc16(s)` (R144): two bytes, big-endian. -/
def crc16 (s : List Byte) : List Byte := bytes16be (crc16v s)

/-! ### CRC-32 -/

/-- One shift of the table construction of R147: right, least significant bit first, constant 0xEDB88320. -/
def t32Shift (r : BitVec 32) : BitVec 32 :=
  if r.getLsbD 0 then (r >>> 1) ^^^ 0xEDB88320 else r >>> 1

/-- `T32[i]` (R147): eight shifts of `i`. -/
def t32 (i : Byte) : BitVec 32 :=
  t32Shift (t32Shift (t32Shift (t32Shift (t32Shift (t32Shift (t32Shift (t32Shift (i.setWidth 32))))))))

/-- One byte of R148. -/
def crc32Step (acc : BitVec 32) (b : Byte) : BitVec 32 :=
  t32 ((acc ^^^ b.setWidth 32).extractLsb' 0 8) ^^^ (acc >>> 8)

/-- `crc32v(s)` (R148): from 0xFFFFFFFF, complemented at the end. -/
def crc32v (s : List Byte) : BitVec 32 := s.foldl crc32Step 0xFFFFFFFF ^^^ 0xFFFFFFFF

/-- `crc32(s)` (R149): four bytes, little-endian. -/
def crc32 (s : List Byte) : List Byte := packU32le (crc32v s)

/-! ### Either width -/

/-- The CRC bytes of `data` at a width (R144, R149). -/
def crcOf : CrcWidth → List Byte → List Byte
  | .w16, data => crc16 data
  | .w32, data => crc32 data

/-- The result of a verify (R151). -/
inductive Verdict where
  | good
  | mismatch (expected received : List Byte)
  deriving DecidableEq, Repr

/-- `verify16(data, got)` and `verify32(data, got)` (R151): recompute and compare byte for byte. -/
def verify (w : CrcWidth) (data got : List Byte) : Verdict :=
  if crcOf w data = got then .good else .mismatch (crcOf w data) got

end Sys2Proof.Machine
end

