-- ==== Sys2Proof/Machine/Crc.lean ====
section
/-! DEFINITION. The CRC commands (R145, R150, R152, R153). -/

namespace Sys2Proof.Machine

/-- CRC16 (R145). -/
def execCrc16 (s : State) : Outcome := .next ((s.setObuf (crc16 s.ibuf)).setArg ((crc16v s.ibuf).setWidth 32)).done

/-- CRC32 (R150). -/
def execCrc32 (s : State) : Outcome := .next ((s.setObuf (crc32 s.ibuf)).setArg (crc32v s.ibuf)).done

/-- VFY16 and VFY32 (R152, R153): the last bytes of IBUF checked as the CRC of the rest; E_LEN before E_CRC
(R267). -/
def verifyTail (w : CrcWidth) (s : State) : Outcome :=
  match splitTail w.bytes s.ibuf with
  | none => .next (s.raise .eLen)
  | some (data, got) =>
    match verify w data got with
    | .good => .next s.done
    | .mismatch expected received => .next (s.raiseCrc w expected received)

/-- VFY16 (R152). -/
def execVfy16 (s : State) : Outcome := verifyTail .w16 s

/-- VFY32 (R153). -/
def execVfy32 (s : State) : Outcome := verifyTail .w32 s

end Sys2Proof.Machine
end

