-- ==== Sys2Proof/Machine/Escape.lean ====
section
/-! DEFINITION. The ZDLE transcoder as pure functions (R160 to R176): the class table, the encoder, the
decoder, the splice. -/

namespace Sys2Proof.Machine

/-- The three effective escape classes (R161). -/
inductive EscClass where
  | never
  | always
  | afterAt
  deriving DecidableEq, Repr

/-- The code ZCLS reports (R161, R165). -/
def EscClass.code : EscClass → BitVec 32
  | .never => 0
  | .always => 1
  | .afterAt => 2

/-- `esc_class(b, E, T)` (R163): the first matching line gives the result. -/
def escClass (b : Byte) (e t : Bool) : EscClass :=
  if b &&& 0x60 ≠ 0 then .never
  else if b = 0x18 ∨ b = 0x11 ∨ b = 0x13 ∨ b = 0x91 ∨ b = 0x93 then .always
  else if e then .always
  else if b = 0x10 ∨ b = 0x90 then (if t then .never else .always)
  else if b = 0x0D ∨ b = 0x8D then (if t then .never else .afterAt)
  else .never

/-- Whether the encoder escapes `c` when the previous source byte is `last` (R166). -/
def mustEscape (e t : Bool) (last c : Byte) : Bool :=
  match escClass c e t with
  | .never => false
  | .always => true
  | .afterAt => last &&& 0x7F == 0x40

/-- The raw bytes of one source byte (R82, R166). -/
def encodeByte (e t : Bool) (last c : Byte) : List Byte :=
  if mustEscape e t last c then [zdle, c ^^^ 0x40] else [c]

/-- `zenc(s, E, T, last)` (R166): the raw bytes and the new `last`. -/
def zencode (e t : Bool) (last : Byte) : List Byte → List Byte × Byte
  | [] => ([], last)
  | c :: s => (encodeByte e t last c ++ (zencode e t c s).1, (zencode e t c s).2)

/-- The logical byte of an escape pair with follower `f`: `(f - 0x40) mod 256` (R168). -/
def unescape (f : Byte) : Byte := f - 0x40

/-- `zdec(raw)` (R168), forward pairing; none is BAD_ESC, a lone trailing ZDLE. -/
def zdecode : List Byte → Option (List Byte)
  | [] => some []
  | [b] => if b = zdle then none else some [b]
  | b :: f :: raw =>
    if b = zdle then (zdecode raw).map (unescape f :: ·)
    else (zdecode (f :: raw)).map (b :: ·)

/-- `splice(s, n)` (R172): the first `n` logical bytes and the raw length used; none is NOT_ENOUGH. -/
def splice : Nat → List Byte → Option (List Byte × Nat)
  | 0, _ => some ([], 0)
  | _ + 1, [] => none
  | n + 1, b :: s =>
    if b = zdle then
      match s with
      | [] => none
      | f :: s' => (splice n s').map fun r => (unescape f :: r.1, r.2 + 2)
    else (splice n s).map fun r => (b :: r.1, r.2 + 1)

end Sys2Proof.Machine
end

