-- ==== Sys2Proof/Machine/Framing.lean ====
section
/-! DEFINITION. Frames as pure functions: the header serialisers (R191 to R195), the frame-start scan (R200 to
R206), the sections of a received header (R211 to R214), the subpacket serialiser (R231) and the terminator
scan (R237). -/

namespace Sys2Proof.Machine

/-! ### The decided parameters of R7 -/

/-- HEX_LF_WINDOW (R7, R211). -/
def hexLfWindow : Nat := 20

/-- SUPPORTED_TYPE (R7, R216). -/
def supportedType (t : Byte) : Bool := decide (t ≤ 11)

/-- HEX_HIBIT_EOL (R7): 0x8A and 0x8D do not count as LF and CR. -/
def hexHibitEol : Bool := false

/-- A byte that counts as LF in a hex header (R211). -/
def isLf (b : Byte) : Bool := b == 0x0A || (hexHibitEol && b == 0x8A)

/-- A byte that counts as CR in a hex header (R212). -/
def isCr (b : Byte) : Bool := b == 0x0D || (hexHibitEol && b == 0x8D)

/-! ### Sending a header -/

/-- `ser_hex(hdr5, eol)` (R191); none for the line ending that does not exist (R192). -/
def serHex (hdr5 : List Byte) (eol : BitVec 2) : Option (List Byte) :=
  (eolBytes eol).map fun ending => pfxHex ++ hexEncode (hdr5 ++ crc16 hdr5) ++ ending

/-- The prefix of a binary header by its CRC width (R79, R80). -/
def binPrefix : CrcWidth → List Byte
  | .w16 => pfxBin16
  | .w32 => pfxBin32

/-- `ser_bin16` and `ser_bin32` (R194, R195): the prefix bypasses the encoder; one pass over header and CRC. -/
def serBin (w : CrcWidth) (hdr5 : List Byte) (e t : Bool) (last : Byte) : List Byte × Byte :=
  (binPrefix w ++ (zencode e t last (hdr5 ++ crcOf w hdr5)).1,
   (zencode e t last (hdr5 ++ crcOf w hdr5)).2)

/-! ### Finding the start of a frame -/

/-- The five answers of `start_kind` (R200). -/
inductive StartKind where
  | hex
  | bin16
  | bin32
  | undecided
  | noStart
  deriving DecidableEq, Repr

/-- "`s` starts with `p`" (R11). -/
def startsWith (p s : List Byte) : Bool := decide (s.take p.length = p)

/-- "`s` is a proper prefix of `p`" (R11). -/
def properPrefix (s p : List Byte) : Bool :=
  decide (s.length < p.length) && decide (p.take s.length = s)

/-- `start_kind(s)` (R200). -/
def startKind (s : List Byte) : StartKind :=
  if startsWith pfxHex s then .hex
  else if startsWith pfxBin16 s then .bin16
  else if startsWith pfxBin32 s then .bin32
  else if s ≠ [] ∧ (properPrefix s pfxHex ∨ properPrefix s pfxBin16 ∨ properPrefix s pfxBin32) then
    .undecided
  else .noStart

/-- The code RX.TRIM leaves in ARG (R207); for a frame found it is also the value of HFMT (R218). -/
def StartKind.code : StartKind → Nat
  | .hex => 1
  | .bin16 => 2
  | .bin32 => 3
  | .undecided => 0
  | .noStart => 0

/-- `trim(buf)` (R204): the garbage before the earliest frame start or possible start, and the rest. -/
def trim : List Byte → List Byte × List Byte
  | [] => ([], [])
  | b :: s =>
    if startKind (b :: s) = .noStart then (b :: (trim s).1, (trim s).2) else ([], b :: s)

/-! ### The section of a received header that holds its logical bytes -/

/-- What delimiting a header found: not all there, a malformed frame with the bytes it takes with it, or the
logical bytes and the raw length of the frame. -/
inductive HeaderSection where
  | incomplete
  | malformed (used : Nat)
  | found (logical : List Byte) (used : Nat)
  deriving DecidableEq, Repr

/-- The hex section (R211 to R213): the LF within the window, the count of bytes before it, the digits. With
no LF in a full window only the four prefix bytes go. -/
def hexSection (buf : List Byte) : HeaderSection :=
  match (buf.take hexLfWindow).findIdx? isLf with
  | none => if buf.length < hexLfWindow then .incomplete else .malformed pfxHex.length
  | some j =>
    if j = 18 ∨ (j = 19 ∧ isCr (buf.getD 18 0)) then
      match hexDecode ((buf.take 18).drop 4) with
      | none => .malformed (j + 1)
      | some seven => .found seven (j + 1)
    else .malformed (j + 1)

/-- The binary section (R214): exactly 7 or 9 logical bytes after the 3-byte prefix. -/
def binSection (w : CrcWidth) (buf : List Byte) : HeaderSection :=
  match splice (5 + w.bytes) (buf.drop 3) with
  | none => .incomplete
  | some (logical, u) => .found logical (3 + u)

/-! ### Subpackets -/

/-- `ser_sub(w, payload, t, E, T, last)` (R231): the marker bypasses the encoder (R233). -/
def serSub (w : CrcWidth) (payload : List Byte) (term : Byte) (e t : Bool) (last : Byte) :
    List Byte × Byte :=
  let a := zencode e t last payload
  let b := zencode e t a.2 (crcOf w (payload ++ [term]))
  (a.1 ++ [zdle, term] ++ b.1, b.2)

/-- `scan_term(s)` (R237): the smallest index of a ZDLE followed by a terminator byte, every position tested. -/
def scanTerm : List Byte → Option Nat
  | z :: t :: s =>
    if z = zdle ∧ isTerminator t then some 0 else (scanTerm (t :: s)).map (· + 1)
  | _ => none

end Sys2Proof.Machine
end

