-- ==== Sys2Proof/Machine/Header.lean ====
section
/-! DEFINITION. The header framer and parser (R193, R196, R197, R207, R209). -/

namespace Sys2Proof.Machine

/-- TX.HEX eol (R193): neither CFG nor LASTCODE is read or written; E_ILLEGAL for selector 3, nothing sent. -/
def execTxHex (sel : BitVec 2) (s : State) : Outcome := 
  match serHex s.hdr.bytes sel with
  | none => .next (s.raise .eIllegal)
  | some frame => .next (s.transmit frame).done

/-- TX.BIN16 and TX.BIN32 (R196, R197): one frame appended, LASTCODE the last CRC byte; the type is not checked
(R198). -/
def sendBin (w : CrcWidth) (s : State) : Outcome :=
  let r := serBin w s.hdr.bytes (ecc s.cfg) (turbo s.cfg) s.lastcode
  .next ((s.transmit r.1).setLastcode r.2).done

/-- TX.BIN16 (R196). -/
def execTxBin16 (s : State) : Outcome := sendBin .w16 s

/-- TX.BIN32 (R197). -/
def execTxBin32 (s : State) : Outcome := sendBin .w32 s

/-- RX.TRIM (R207): garbage to OBUF, the rest stays, ARG says what starts there. -/
def execRxTrim (s : State) : Outcome := 
  let r := trim s.rxbuf
  .next (((s.setObuf r.1).setRxbuf r.2).setArg (BitVec.ofNat 32 (startKind r.2).code)).done

/-- A delimited header: the frame is consumed, then the CRC is checked, then the type (R209, R215 to R218). -/
def acceptHeader (kind : StartKind) (w : CrcWidth) (logical : List Byte) (s : State) : Outcome :=
  match verify w (logical.take 5) (logical.drop 5) with
  | .mismatch expected received => .next (s.raiseCrc w expected received)
  | .good =>
    if supportedType (headerOf logical).b0 then
      .next (s.setParsedHeader (headerOf logical) (BitVec.ofNat 2 kind.code)).done
    else .next (s.raise .eUnsupported)

/-- What a header's section does to the machine: INCOMPLETE changes nothing, a malformed frame is removed and
raises E_HEXFMT (R211 to R213), a delimited one is removed and accepted or refused. -/
def takeHeader (kind : StartKind) (w : CrcWidth) (delimited : HeaderSection) (s : State) : Outcome :=
  match delimited with
  | .incomplete => .next s.incomplete
  | .malformed used => .next ((s.consume used).raise .eHexfmt)
  | .found logical used => acceptHeader kind w logical (s.consume used)

/-- RX.HDR (R209): parses at index 0 of RXBUF; the framing is told from the prefix (R208). -/
def execRxHdr (s : State) : Outcome := 
  match startKind s.rxbuf with
  | .hex => takeHeader .hex .w16 (hexSection s.rxbuf) s
  | .bin16 => takeHeader .bin16 .w16 (binSection .w16 s.rxbuf) s
  | .bin32 => takeHeader .bin32 .w32 (binSection .w32 s.rxbuf) s
  | .undecided => .next s.incomplete
  | .noStart => if s.rxbuf = [] then .next s.incomplete else .next (s.raise .eNoframe)

end Sys2Proof.Machine
end

