-- ==== Sys2Proof/Machine/Primitives.lean ====
section
/-! DEFINITION. The codec primitives as commands (R121 to R131). -/

namespace Sys2Proof.Machine

/-- PACK16 (R121): E_RANGE when `ARG > 0xFFFF`. -/
def execPack16 (s : State) : Outcome := 
  match packU16be s.arg.toNat with
  | none => .next (s.raise .eRange)
  | some r => .next (s.setObuf r).done

/-- UNPACK16 (R123): E_LEN when IBUF does not hold exactly 2 bytes. -/
def execUnpack16 (s : State) : Outcome := 
  match unpackU16be s.ibuf with
  | none => .next (s.raise .eLen)
  | some r => .next (s.setArg (BitVec.ofNat 32 r)).done

/-- PACK32 (R125). -/
def execPack32 (s : State) : Outcome := .next (s.setObuf (packU32le s.arg)).done

/-- UNPACK32 (R127): E_LEN when IBUF does not hold exactly 4 bytes. -/
def execUnpack32 (s : State) : Outcome := 
  match unpackU32le s.ibuf with
  | none => .next (s.raise .eLen)
  | some r => .next (s.setArg (BitVec.ofNat 32 r)).done

/-- HEX.ENC (R129). -/
def execHexEnc (s : State) : Outcome := .next (s.setObuf (hexEncode s.ibuf)).done

/-- HEX.DEC (R131): E_HEXFMT on an odd length or a byte that is no lower-case digit. -/
def execHexDec (s : State) : Outcome := 
  match hexDecode s.ibuf with
  | none => .next (s.raise .eHexfmt)
  | some r => .next (s.setObuf r).done

end Sys2Proof.Machine
end

