-- ==== Sys2Proof/Machine/Registers.lean ====
section
/-! DEFINITION. The operand registers: the lanes of ARG (R108 to R112) and the bytes of HDR (R109, R116 to R119). -/

namespace Sys2Proof.Machine

/-- ARG.SET0 b (R108): `ARG[7:0] <- b`. -/
def execArgSet0 (b : Byte) (s : State) : Outcome := .next (s.setArg (setLane 0 s.arg b)).done

/-- ARG.SET1 b (R110): `ARG[15:8] <- b`. -/
def execArgSet1 (b : Byte) (s : State) : Outcome := .next (s.setArg (setLane 1 s.arg b)).done

/-- ARG.SET2 b (R111): `ARG[23:16] <- b`. -/
def execArgSet2 (b : Byte) (s : State) : Outcome := .next (s.setArg (setLane 2 s.arg b)).done

/-- ARG.SET3 b (R112): `ARG[31:24] <- b`. -/
def execArgSet3 (b : Byte) (s : State) : Outcome := .next (s.setArg (setLane 3 s.arg b)).done

/-- HDR.SET0 b (R109): `HDR[0] <- b`. The type is not checked (R198). -/
def execHdrSet0 (b : Byte) (s : State) : Outcome := .next (s.setHdr { s.hdr with b0 := b }).done

/-- HDR.SET1 b (R116): `HDR[1] <- b`. -/
def execHdrSet1 (b : Byte) (s : State) : Outcome := .next (s.setHdr { s.hdr with b1 := b }).done

/-- HDR.SET2 b (R117): `HDR[2] <- b`. -/
def execHdrSet2 (b : Byte) (s : State) : Outcome := .next (s.setHdr { s.hdr with b2 := b }).done

/-- HDR.SET3 b (R118): `HDR[3] <- b`. -/
def execHdrSet3 (b : Byte) (s : State) : Outcome := .next (s.setHdr { s.hdr with b3 := b }).done

/-- HDR.SET4 b (R119): `HDR[4] <- b`. -/
def execHdrSet4 (b : Byte) (s : State) : Outcome := .next (s.setHdr { s.hdr with b4 := b }).done

end Sys2Proof.Machine
end

