-- ==== Sys2Proof/Machine/Subpacket.lean ====
section
/-! DEFINITION. The subpacket framer, the terminator scan and the subpacket parser (R234, R235, R238, R240, R245). -/

namespace Sys2Proof.Machine

/-- TX.SUB16 and TX.SUB32 (R234, R235): IBUF framed with terminator `0x68 + sel`. -/
def sendSub (w : CrcWidth) (sel : BitVec 2) (s : State) : Outcome :=
  let r := serSub w s.ibuf (terminatorByte sel) (ecc s.cfg) (turbo s.cfg) s.lastcode
  .next ((s.transmit r.1).setLastcode r.2).done

/-- TX.SUB16 sel (R234). -/
def execTxSub16 (sel : BitVec 2) (s : State) : Outcome := sendSub .w16 sel s

/-- TX.SUB32 sel (R235). -/
def execTxSub32 (sel : BitVec 2) (s : State) : Outcome := sendSub .w32 sel s

/-- RX.SCAN (R238): the index of the first marker to ARG (log 5), its byte to SUBT; RXBUF is not changed. -/
def execRxScan (s : State) : Outcome := 
  match scanTerm s.rxbuf with
  | none => .next s.incomplete
  | some i => .next ((s.setArg (BitVec.ofNat 32 i)).setSubt (s.rxbuf.getD (i + 1) 0)).done

/-- A delimited subpacket, already consumed: raw payload `raw`, terminator `t`, CRC bytes `got`. A payload that
ends in a lone ZDLE is E_BADESC (R243), then the CRC decides (R244). -/
def acceptSub (w : CrcWidth) (raw : List Byte) (t : Byte) (got : List Byte) (s : State) : Outcome :=
  match zdecode raw with
  | none => .next (s.raise .eBadesc)
  | some p =>
    match verify w (p ++ [t]) got with
    | .mismatch expected received => .next (s.raiseCrc w expected received)
    | .good => .next ((s.setObuf p).setSubt t).done

/-- RX.SUB16 and RX.SUB32 (R240, R245): marker, then CRC bytes, else INCOMPLETE with nothing changed (R241,
R242); then the subpacket is consumed and judged. -/
def takeSub (w : CrcWidth) (s : State) : Outcome :=
  match scanTerm s.rxbuf with
  | none => .next s.incomplete
  | some i =>
    match splice w.bytes (s.rxbuf.drop (i + 2)) with
    | none => .next s.incomplete
    | some (got, u) =>
      acceptSub w (s.rxbuf.take i) (s.rxbuf.getD (i + 1) 0) got (s.consume (i + 2 + u))

/-- RX.SUB16 (R240). -/
def execRxSub16 (s : State) : Outcome := takeSub .w16 s

/-- RX.SUB32 (R245). -/
def execRxSub32 (s : State) : Outcome := takeSub .w32 s

end Sys2Proof.Machine
end

