-- ==== Sys2Proof/Machine/System.lean ====
section
/-! DEFINITION. The system commands (R100 to R103) and the illegal word (R90, R262). -/

namespace Sys2Proof.Machine

/-- NOP (R100): STATUS and nothing else. -/
def execNop (s : State) : Outcome := .next s.done

/-- RST (R101): every field takes its reset value (R42), STATUS 0x00 among them. -/
def execRst (s : State) : Outcome := .next s.resetBlock

/-- CFG sel (R102). -/
def execCfg (sel : BitVec 2) (s : State) : Outcome := .next (s.setCfg sel).done

/-- ZENC.RST (R103). -/
def execZencRst (s : State) : Outcome := .next (s.setLastcode 0x00).done

/-- A word that is no command (R90, R262): E_ILLEGAL, nothing else changes, the word is not recorded. -/
def execIllegal (_cw : CommandWord) (s : State) : Outcome := .next (s.raise .eIllegal)

end Sys2Proof.Machine
end

