-- ==== Sys2Proof/Machine/Wire.lean ====
section
/-! DEFINITION. The wire rows of the opcode table. A wire pattern is no command word; it is a burst of bytes on the
line, and "the host turns it into an RX.PUSH command" for each byte (R270): RX.FEED of the pattern (R96, log 3). -/

namespace Sys2Proof.Machine

/-- `2A 2A 18 42` arrives (R77). -/
def execWirePfxHex (s : State) : Outcome := .next (feed pfxHex s)

/-- `2A 18 41` arrives (R79). -/
def execWirePfxBin16 (s : State) : Outcome := .next (feed pfxBin16 s)

/-- `2A 18 43` arrives (R80). -/
def execWirePfxBin32 (s : State) : Outcome := .next (feed pfxBin32 s)

/-- `0D 0A 11` arrives (R78); the XON is dropped by RX.PUSH (R210). -/
def execWireEol0 (s : State) : Outcome := .next (feed eolCrLfXon s)

/-- `0D 0A` arrives (R78). -/
def execWireEol1 (s : State) : Outcome := .next (feed eolCrLf s)

/-- `0A` arrives (R78). -/
def execWireEol2 (s : State) : Outcome := .next (feed eolLf s)

/-- The terminator marker `18 t`, `t = 0x68 + k`, arrives (R81). -/
def execWireTerm (k : BitVec 2) (s : State) : Outcome := .next (feed [zdle, terminatorByte k] s)

/-- The escape pair `18 f` arrives (R82). -/
def execWireEsc (f : Byte) (s : State) : Outcome := .next (feed [zdle, f] s)

end Sys2Proof.Machine
end

