-- ==== Sys2Proof/Machine/Zdle.lean ====
section
/-! DEFINITION. The ZDLE transcoder as commands (R165, R167, R170, R173). -/

namespace Sys2Proof.Machine

/-- ZENC (R167): OBUF and LASTCODE; TXOUT is not touched. -/
def execZenc (s : State) : Outcome := 
  let r := zencode (ecc s.cfg) (turbo s.cfg) s.lastcode s.ibuf
  .next ((s.setObuf r.1).setLastcode r.2).done

/-- ZDEC (R170): E_BADESC on a lone trailing ZDLE; reads neither CFG nor LASTCODE. -/
def execZdec (s : State) : Outcome := 
  match zdecode s.ibuf with
  | none => .next (s.raise .eBadesc)
  | some r => .next (s.setObuf r).done

/-- ZCLS b (R165): the class code of `b` under CFG. -/
def execZcls (b : Byte) (s : State) : Outcome := .next (s.setArg (escClass b (ecc s.cfg) (turbo s.cfg)).code).done

/-- RX.SPLICE n (R173): INCOMPLETE leaves RXBUF and OBUF. -/
def execRxSplice (n : Byte) (s : State) : Outcome := 
  match splice (spliceCount n) s.rxbuf with
  | none => .next s.incomplete
  | some (out, i) => .next ((s.setObuf out).consume i).done

end Sys2Proof.Machine
end

