-- ==== Sys2Proof/Machine/Dispatch.lean ====
section
/-! DEFINITION. The one dispatch from instructions to their meanings, in the opcode table's order. -/

namespace Sys2Proof.Machine

/-- One instruction: every command is total and ends by writing STATUS (R13, R19). -/
def exec (i : Instr) (s : State) : Host.Outcome State Fault Refusal :=
  match i with
  | .nop => Sys2Proof.Machine.execNop s
  | .rst => Sys2Proof.Machine.execRst s
  | .cfg sel => Sys2Proof.Machine.execCfg sel s
  | .zencRst => Sys2Proof.Machine.execZencRst s
  | .ibClr => Sys2Proof.Machine.execIbClr s
  | .ibPush b => Sys2Proof.Machine.execIbPush b s
  | .ibLdob => Sys2Proof.Machine.execIbLdob s
  | .argSet0 b => Sys2Proof.Machine.execArgSet0 b s
  | .argSet1 b => Sys2Proof.Machine.execArgSet1 b s
  | .argSet2 b => Sys2Proof.Machine.execArgSet2 b s
  | .argSet3 b => Sys2Proof.Machine.execArgSet3 b s
  | .pack16 => Sys2Proof.Machine.execPack16 s
  | .unpack16 => Sys2Proof.Machine.execUnpack16 s
  | .pack32 => Sys2Proof.Machine.execPack32 s
  | .unpack32 => Sys2Proof.Machine.execUnpack32 s
  | .hexEnc => Sys2Proof.Machine.execHexEnc s
  | .hexDec => Sys2Proof.Machine.execHexDec s
  | .crc16 => Sys2Proof.Machine.execCrc16 s
  | .crc32 => Sys2Proof.Machine.execCrc32 s
  | .vfy16 => Sys2Proof.Machine.execVfy16 s
  | .vfy32 => Sys2Proof.Machine.execVfy32 s
  | .zenc => Sys2Proof.Machine.execZenc s
  | .zdec => Sys2Proof.Machine.execZdec s
  | .zcls b => Sys2Proof.Machine.execZcls b s
  | .hdrSet0 b => Sys2Proof.Machine.execHdrSet0 b s
  | .hdrSet1 b => Sys2Proof.Machine.execHdrSet1 b s
  | .hdrSet2 b => Sys2Proof.Machine.execHdrSet2 b s
  | .hdrSet3 b => Sys2Proof.Machine.execHdrSet3 b s
  | .hdrSet4 b => Sys2Proof.Machine.execHdrSet4 b s
  | .txHex sel => Sys2Proof.Machine.execTxHex sel s
  | .txBin16 => Sys2Proof.Machine.execTxBin16 s
  | .txBin32 => Sys2Proof.Machine.execTxBin32 s
  | .txSub16 sel => Sys2Proof.Machine.execTxSub16 sel s
  | .txSub32 sel => Sys2Proof.Machine.execTxSub32 sel s
  | .rxPush b => Sys2Proof.Machine.execRxPush b s
  | .rxClr => Sys2Proof.Machine.execRxClr s
  | .rxTrim => Sys2Proof.Machine.execRxTrim s
  | .rxHdr => Sys2Proof.Machine.execRxHdr s
  | .rxSub16 => Sys2Proof.Machine.execRxSub16 s
  | .rxSub32 => Sys2Proof.Machine.execRxSub32 s
  | .rxScan => Sys2Proof.Machine.execRxScan s
  | .rxSplice n => Sys2Proof.Machine.execRxSplice n s
  | .illegal cw => Sys2Proof.Machine.execIllegal cw s
  | .wirePfxHex => Sys2Proof.Machine.execWirePfxHex s
  | .wirePfxBin16 => Sys2Proof.Machine.execWirePfxBin16 s
  | .wirePfxBin32 => Sys2Proof.Machine.execWirePfxBin32 s
  | .wireEol0 => Sys2Proof.Machine.execWireEol0 s
  | .wireEol1 => Sys2Proof.Machine.execWireEol1 s
  | .wireEol2 => Sys2Proof.Machine.execWireEol2 s
  | .wireTerm k => Sys2Proof.Machine.execWireTerm k s
  | .wireEsc f => Sys2Proof.Machine.execWireEsc f s

end Sys2Proof.Machine
end

