-- ==== Sys2Proof/Machine/Fetch.lean ====
section
/-! DEFINITION. Where the next instruction comes from: ZCB has no fetch (R26), the host presents its actions
one at a time (R71), and the model keeps those not yet taken in State (log 1). -/

namespace Sys2Proof.Machine

/-- The state once its first pending action is taken. -/
def State.withPending (s : State) (rest : List HostAction) : State := { s with pending := rest }

/-- The host is about to present the code of an opcode-table number: it stands first among its actions. -/
def State.presentTableWord (s : State) (nbits w : Nat) : State :=
  s.withPending (.present (tableCode nbits w) :: s.pending)

/-- A burst of line bytes that is none of the wire patterns: RX.FEED all the same (R96, log 3). -/
def feedUnrecognised (e : DecodeError) (s : State) : State :=
  match e with
  | .notAWirePattern bytes => feed bytes s

end Sys2Proof.Machine
end

