-- ==== Sys2Proof/Machine/Step.lean ====
section
/-! DEFINITION. One step: the block takes the host's next action. A presented code is decoded and executed to
completion (R57, R71); the reset input resets the block (R290); with no action pending the block is idle and
keeps all its state (R279, R291, R313). -/

namespace Sys2Proof.Machine

/-- One step of the machine (R71). -/
def step (s : State) : Host.Outcome State Fault Refusal :=
  match s.pending with
  | [] => .next s
  | .resetInput :: rest => .next (s.withPending rest).resetBlock
  | .present c :: rest =>
    match decode c with
    | .ok i => exec i (s.withPending rest)
    | .error e => .next (feedUnrecognised e (s.withPending rest))

/-- The state in which the next step runs the instruction of an opcode-table number (log 1, log 4). -/
def State.withFetchWord (s : State) (nbits w : Nat) : State := s.presentTableWord nbits w

end Sys2Proof.Machine
end

