-- ==== Sys2Proof/Machine/Assembler.lean ====
section
/-! DEFINITION. The assembler: the line a command is written as (R95), and the pseudo-instructions (R96), what each
expands to, as the commands the host issues. -/

namespace Sys2Proof.Machine

/-! ### One line per command (R95) -/

/-- A hexadecimal digit as R95's examples write it, upper case. -/
def digitText (n : Nat) : String :=
  ["0", "1", "2", "3", "4", "5", "6", "7", "8", "9", "A", "B", "C", "D", "E", "F"].getD (n % 16) "0"

/-- "a byte as `0xNN` for format B" (R95). -/
def byteText (b : Byte) : String := "0x" ++ digitText (b.toNat / 16) ++ digitText b.toNat

/-- "the selector as a decimal digit for format S" (R95). -/
def selectorText (sel : BitVec 2) : String := digitText sel.toNat

/-- The line a command is written as: "its mnemonic, then its operand if it has one" (R95). The `(illegal)` row and
the wire rows are no commands and have none. -/
def asmLine : Instr → Option String
  | .nop => some "NOP"
  | .rst => some "RST"
  | .cfg sel => some ("CFG " ++ selectorText sel)
  | .zencRst => some "ZENC.RST"
  | .ibClr => some "IB.CLR"
  | .ibPush b => some ("IB.PUSH " ++ byteText b)
  | .ibLdob => some "IB.LDOB"
  | .argSet0 b => some ("ARG.SET0 " ++ byteText b)
  | .argSet1 b => some ("ARG.SET1 " ++ byteText b)
  | .argSet2 b => some ("ARG.SET2 " ++ byteText b)
  | .argSet3 b => some ("ARG.SET3 " ++ byteText b)
  | .pack16 => some "PACK16"
  | .unpack16 => some "UNPACK16"
  | .pack32 => some "PACK32"
  | .unpack32 => some "UNPACK32"
  | .hexEnc => some "HEX.ENC"
  | .hexDec => some "HEX.DEC"
  | .crc16 => some "CRC16"
  | .crc32 => some "CRC32"
  | .vfy16 => some "VFY16"
  | .vfy32 => some "VFY32"
  | .zenc => some "ZENC"
  | .zdec => some "ZDEC"
  | .zcls b => some ("ZCLS " ++ byteText b)
  | .hdrSet0 b => some ("HDR.SET0 " ++ byteText b)
  | .hdrSet1 b => some ("HDR.SET1 " ++ byteText b)
  | .hdrSet2 b => some ("HDR.SET2 " ++ byteText b)
  | .hdrSet3 b => some ("HDR.SET3 " ++ byteText b)
  | .hdrSet4 b => some ("HDR.SET4 " ++ byteText b)
  | .txHex sel => some ("TX.HEX " ++ selectorText sel)
  | .txBin16 => some "TX.BIN16"
  | .txBin32 => some "TX.BIN32"
  | .txSub16 sel => some ("TX.SUB16 " ++ selectorText sel)
  | .txSub32 sel => some ("TX.SUB32 " ++ selectorText sel)
  | .rxPush b => some ("RX.PUSH " ++ byteText b)
  | .rxClr => some "RX.CLR"
  | .rxTrim => some "RX.TRIM"
  | .rxHdr => some "RX.HDR"
  | .rxSub16 => some "RX.SUB16"
  | .rxSub32 => some "RX.SUB32"
  | .rxScan => some "RX.SCAN"
  | .rxSplice n => some ("RX.SPLICE " ++ byteText n)
  | .illegal _ => none
  | .wirePfxHex => none
  | .wirePfxBin16 => none
  | .wirePfxBin32 => none
  | .wireEol0 => none
  | .wireEol1 => none
  | .wireEol2 => none
  | .wireTerm _ => none
  | .wireEsc _ => none

/-! ### Pseudo-instructions (R96) -/

/-- The five pseudo-instructions of R96. `rxLoop fed` is given how many bytes of TXOUT were fed before. -/
inductive Pseudo where
  | ibLoad (bytes : List Byte)
  | argLoad (v : BitVec 32)
  | hdrLoad (t p0 p1 p2 p3 : Byte)
  | rxFeed (bytes : List Byte)
  | rxLoop (fed : Nat)
  deriving DecidableEq, Repr

/-- The commands a pseudo-instruction expands to, in order (R96); RX.LOOP reads TXOUT, the others nothing. -/
def expand (s : State) : Pseudo → List Instr
  | .ibLoad bytes => .ibClr :: bytes.map .ibPush
  | .argLoad v =>
    [.argSet0 (v.extractLsb' 0 8), .argSet1 (v.extractLsb' 8 8), .argSet2 (v.extractLsb' 16 8),
     .argSet3 (v.extractLsb' 24 8)]
  | .hdrLoad t p0 p1 p2 p3 => [.hdrSet0 t, .hdrSet1 p0, .hdrSet2 p1, .hdrSet3 p2, .hdrSet4 p3]
  | .rxFeed bytes => bytes.map .rxPush
  | .rxLoop fed => (s.txout.drop fed).map .rxPush

/-- A pseudo-instruction as the host's actions: each command's word, in order (R71, R96). -/
def pseudoActions (s : State) (p : Pseudo) : List HostAction :=
  (expand s p).map fun i => .present (encode i)

end Sys2Proof.Machine
end

