-- ==== Sys2Proof/Machine/Block.lean ====
section
/-! DEFINITION. The step as R71 has it: from a state, which is the tuple of R20 and nothing else, and one command
word, which is its input, to the next state; the parameters are its argument (R7, R21). The host's `step` is this
function fed with the inputs State carries (log 1, log 2). -/

namespace Sys2Proof.Machine

/-- The block's part of an outcome. -/
def blockOutcome : Outcome → Host.Outcome Block Fault Refusal
  | .next t => .next t.toBlock
  | .fault r => .fault r
  | .refused r => .refused r

/-- One instruction on a block with the parameters `p`, no input waiting. -/
def blockExec (p : Config.Params) (i : Instr) (b : Block) : Host.Outcome Block Fault Refusal :=
  blockOutcome (exec i { toBlock := b, params := p, pending := [] })

/-- The step of R71: a state of R20 and one command word give the next state. -/
def blockStep (p : Config.Params) (b : Block) (cw : CommandWord) : Host.Outcome Block Fault Refusal :=
  blockExec p (decodeCommand cw) b

/-- An outcome of the block, with the parameters and the coming inputs of `s` as they are. -/
def State.withBlock (s : State) : Host.Outcome Block Fault Refusal → Outcome
  | .next b => .next { s with toBlock := b }
  | .fault r => .fault r
  | .refused r => .refused r

end Sys2Proof.Machine
end

