-- ==== Sys2Proof/Machine/HostPort.lean ====
section
/-! DEFINITION. The host's read side: "any register except LASTCODE, and any buffer, may be read by the host
between two commands; reading has no side effect" (R25, R58). A read is a function of the state (log 7). -/

namespace Sys2Proof.Machine

/-- What the host can read. There is no port for LASTCODE (R40). -/
inductive ReadPort where
  | cfg
  | hdr (i : Fin 5)
  | arg
  | rxh (i : Fin 5)
  | hfmt
  | subt
  | crcx (i : Fin 4)
  | crcg (i : Fin 4)
  | crck
  | status
  | ibuf
  | obuf
  | rxbuf
  | txout
  deriving DecidableEq, Repr

/-- What a read gives: a register's value or a buffer's bytes, whose length the host may read (R21). -/
inductive ReadValue where
  | register (v : Nat)
  | buffer (bytes : List Byte)
  deriving DecidableEq, Repr

/-- The four bytes of a CRC register group (R32). -/
def CrcBytes.bytes (c : CrcBytes) : List Byte := [c.b0, c.b1, c.b2, c.b3]

/-- A host read (R25). -/
def readPort (s : State) : ReadPort → ReadValue
  | .cfg => .register s.cfg.toNat
  | .hdr i => .register (s.hdr.bytes.getD i.val 0).toNat
  | .arg => .register s.arg.toNat
  | .rxh i => .register (s.rxh.bytes.getD i.val 0).toNat
  | .hfmt => .register s.hfmt.toNat
  | .subt => .register s.subt.toNat
  | .crcx i => .register (s.crcx.bytes.getD i.val 0).toNat
  | .crcg i => .register (s.crcg.bytes.getD i.val 0).toNat
  | .crck => .register s.crck.toNat
  | .status => .register s.status.toNat
  | .ibuf => .buffer s.ibuf
  | .obuf => .buffer s.obuf
  | .rxbuf => .buffer s.rxbuf
  | .txout => .buffer s.txout

/-- The CRC width of the last header received, as HFMT tells it: 32 when `HFMT = 3` and 16 otherwise (R30,
R246). No command reads it; the host chooses RX.SUB16 or RX.SUB32 by it. -/
def lastHeaderCrcWidth (s : State) : CrcWidth := if s.hfmt = 3 then .w32 else .w16

end Sys2Proof.Machine
end

