-- ==== Sys2Proof/Safety.lean ====
section
/-! DEFINITION. What counts as a sound state and a safe step: the invariants the statements use. -/

namespace Sys2Proof.Machine

/-- A step is safe: it ends in a next state, by neither a fault nor a refusal (R19). -/
def SafeStep (s : State) : Prop := ∃ t, step s = .next t

/-- The buffers are within their capacities, and the capacities are as R7 allows: IBUF, RXBUF and OBUF, the
last with `OBUF_CAP = max(2 * IBUF_CAP, RXBUF_CAP)` (R7, R60). -/
abbrev State.withinCapacities (s : State) : Prop :=
  s.params.wellFormed = true ∧ Config.fits s.ibuf.length s.params.ibufCap = true ∧
  Config.fits s.rxbuf.length s.params.rxbufCap = true ∧
  Config.fits s.obuf.length s.params.obufCap = true

/-- RXBUF holds no flow-control byte: RX.PUSH is the only way in and drops them (R114, R210, R310). -/
abbrev State.rxbufFiltered (s : State) : Prop := ∀ b ∈ s.rxbuf, isFlowControl b = false

/-- STATUS holds one of the eleven codes of R261. -/
abbrev State.statusLegal (s : State) : Prop :=
  s.status ∈ ([0x00, 0x01, 0x80, 0x81, 0x82, 0x83, 0x84, 0x85, 0x86, 0x87, 0x88] : List Byte)

/-- SUBT is 0x00 or one of the four terminator bytes (R31). -/
abbrev State.subtLegal (s : State) : Prop :=
  s.subt ∈ ([0x00, 0x68, 0x69, 0x6A, 0x6B] : List Byte)

/-- RXH holds a header of a supported type (R84, R216), all zero while HFMT says none was parsed (R30, R42). -/
abbrev State.parsedHeaderLegal (s : State) : Prop :=
  s.rxh.b0 ≤ 11 ∧ (s.hfmt = 0 → s.rxh = Header.zero)

/-- With CRCK = 0 bytes 2 and 3 of CRCX and CRCG are zero (R32). -/
abbrev State.crcRegistersLegal (s : State) : Prop :=
  s.crck = 0 → s.crcx.b2 = 0 ∧ s.crcx.b3 = 0 ∧ s.crcg.b2 = 0 ∧ s.crcg.b3 = 0

/-- Every status register is as the rules say it reads (R29 to R32). -/
abbrev State.statusRegistersLegal (s : State) : Prop :=
  s.statusLegal ∧ s.subtLegal ∧ s.parsedHeaderLegal ∧ s.crcRegistersLegal

/-! ### Which instruction may write what -/

/-- The commands that may write ARG (R22): the host's four, the seven with a result there, and RST. -/
def mayWriteArg : Instr → Bool
  | .argSet0 _ | .argSet1 _ | .argSet2 _ | .argSet3 _ => true
  | .unpack16 | .unpack32 | .crc16 | .crc32 | .zcls _ | .rxTrim | .rxScan => true
  | .rst => true
  | _ => false

/-- The commands that may write HDR (R23), and RST. -/
def mayWriteHdr : Instr → Bool
  | .hdrSet0 _ | .hdrSet1 _ | .hdrSet2 _ | .hdrSet3 _ | .hdrSet4 _ | .rst => true
  | _ => false

/-- The commands that may write CFG (R28), and RST. -/
def mayWriteCfg : Instr → Bool
  | .cfg _ | .rst => true
  | _ => false

/-- The commands that may write LASTCODE (R40). -/
def mayWriteLastcode : Instr → Bool
  | .zenc | .txBin16 | .txBin32 | .txSub16 _ | .txSub32 _ | .zencRst | .rst => true
  | _ => false

/-- The commands that may write SUBT (R31), and RST. -/
def mayWriteSubt : Instr → Bool
  | .rxSub16 | .rxSub32 | .rxScan | .rst => true
  | _ => false

/-- The commands that can raise E_CRC, the only writers of CRCX, CRCG and CRCK (R32). -/
def mayRaiseCrc : Instr → Bool
  | .vfy16 | .vfy32 | .rxHdr | .rxSub16 | .rxSub32 => true
  | _ => false

/-- The commands that may write IBUF (R36), and RST. -/
def mayWriteIbuf : Instr → Bool
  | .ibClr | .ibPush _ | .ibLdob | .rst => true
  | _ => false

/-- The producing commands, which replace OBUF when they end in OK (R37). -/
def producesObuf : Instr → Bool
  | .pack16 | .pack32 | .hexEnc | .hexDec | .crc16 | .crc32 | .zenc | .zdec => true
  | .rxTrim | .rxSplice _ | .rxSub16 | .rxSub32 => true
  | _ => false

/-- The commands that take bytes from the front of RXBUF (R35). -/
def consumesRxbuf : Instr → Bool
  | .rxTrim | .rxHdr | .rxSub16 | .rxSub32 | .rxSplice _ => true
  | _ => false

/-- What appends to RXBUF: RX.PUSH (R35), and the wire rows, which are RX.PUSH of their bytes (log 3). -/
def appendsRxbuf : Instr → Bool
  | .rxPush _ => true
  | .wirePfxHex | .wirePfxBin16 | .wirePfxBin32 => true
  | .wireEol0 | .wireEol1 | .wireEol2 | .wireTerm _ | .wireEsc _ => true
  | _ => false

/-- The commands that append to TXOUT (R38). -/
def transmits : Instr → Bool
  | .txHex _ | .txBin16 | .txBin32 | .txSub16 _ | .txSub32 _ => true
  | _ => false

/-- The commands whose frame errors remove the frame from RXBUF (R264). -/
def parsesFrame : Instr → Bool
  | .rxHdr | .rxSub16 | .rxSub32 => true
  | _ => false

/-- The matrix of outcomes (R280); the word of an illegal row ends in E_ILLEGAL (R262), and a wire row, being
RX.PUSH of its bytes (log 3), ends as RX.PUSH can. -/
def outcomeMatrix : Instr → List Byte
  | .ibPush _ | .ibLdob | .rxPush _ => [0x00, 0x87]
  | .pack16 => [0x00, 0x81]
  | .unpack16 | .unpack32 => [0x00, 0x88]
  | .hexDec => [0x00, 0x84]
  | .vfy16 | .vfy32 => [0x00, 0x82, 0x88]
  | .zdec => [0x00, 0x86]
  | .rxScan | .rxSplice _ => [0x00, 0x01]
  | .rxHdr => [0x00, 0x01, 0x82, 0x83, 0x84, 0x85]
  | .rxSub16 | .rxSub32 => [0x00, 0x01, 0x82, 0x86]
  | .illegal _ => [0x80]
  | .wirePfxHex | .wirePfxBin16 | .wirePfxBin32 => [0x00, 0x87]
  | .wireEol0 | .wireEol1 | .wireEol2 | .wireTerm _ | .wireEsc _ => [0x00, 0x87]
  | _ => [0x00]

/-! ### Sequences of commands -/

/-- Commands issued one after another (R62): the first that does not end in a next state stops the run. -/
def execAll : List Instr → State → Outcome
  | [], s => .next s
  | i :: is, s =>
    match exec i s with
    | .next t => execAll is t
    | .fault r => .fault r
    | .refused r => .refused r

/-- One clock of the shift register of R143. -/
def crc16Clock (acc : BitVec 16) (bit : Bool) : BitVec 16 :=
  let shifted := (acc <<< 1) ||| (BitVec.ofBool bit).setWidth 16
  if acc.getLsbD 15 then shifted ^^^ 0x1021 else shifted

/-- The bits of a byte, most significant first (R143). -/
def bitsMsbFirst (b : Byte) : List Bool :=
  [b.getLsbD 7, b.getLsbD 6, b.getLsbD 5, b.getLsbD 4, b.getLsbD 3, b.getLsbD 2, b.getLsbD 1, b.getLsbD 0]

/-- The bit-serial form of the CRC-16 (R143), over `s ++ [0, 0]`. -/
def crc16Serial (s : List Byte) : BitVec 16 :=
  ((s ++ [0x00, 0x00]).flatMap bitsMsbFirst).foldl crc16Clock 0x0000

/-- The non-augmented table form of the CRC-16 (R142, R143), over `s` alone. -/
def crc16Direct (s : List Byte) : BitVec 16 :=
  s.foldl (fun acc b => t16 (acc.extractLsb' 8 8 ^^^ b) ^^^ (acc <<< 8)) 0x0000

end Sys2Proof.Machine
end

