-- ==== Sys2Proof/Certificates/Slice0/Obligations.lean ====
section
/-! DEFINITION. The statements for the provers. Each is written from the numbered rule its docstring names; a
next state is written out as the record the rules give, so that what it does not name is unchanged. -/

open Sys2Proof Sys2Proof.Machine

/-! ### What each command does -/

/-- R100, R103: NOP and ZENC.RST, their words and their whole effect. -/
def Obligations.NopAndEncoderResetRun : Prop :=
  decodeCommand 0x0000 = .nop ∧ (∀ s, exec .nop s = .next { s with status := 0x00 }) ∧
  decodeCommand 0x0300 = .zencRst ∧
  (∀ s, exec .zencRst s = .next { s with lastcode := 0x00, status := 0x00 })

/-- R102: CFG takes its selector; bit 0 is ECC and bit 1 is TURBO; a word with `imm[7:2]` not zero is illegal and
leaves CFG as it was. -/
def Obligations.CfgCommandRuns : Prop :=
  (∀ sel : BitVec 2, decodeCommand (0x0200 ||| sel.setWidth 16) = .cfg sel) ∧
  (∀ sel s, exec (.cfg sel) s = .next { s with cfg := sel, status := 0x00 }) ∧
  (∀ sel : BitVec 2, ecc sel = sel.getLsbD 0 ∧ turbo sel = sel.getLsbD 1) ∧
  (∀ (cw : CommandWord) s, cw.extractLsb' 8 8 = 0x02#8 → cw.extractLsb' 2 6 ≠ 0#6 →
    exec (decodeCommand cw) s = .next { s with status := 0x80 })

/-- R101: the state RST leaves has every field of R20 at its reset value, and so has State.reset. (The reset input
is in StepWithoutAnInstruction.) -/
def Obligations.ResetRestoresEveryField : Prop :=
  let isReset : State → Prop := fun t =>
    t.cfg = 0 ∧ t.lastcode = 0x00 ∧ t.hdr = ⟨0, 0, 0, 0, 0⟩ ∧ t.arg = 0 ∧ t.rxh = ⟨0, 0, 0, 0, 0⟩ ∧
    t.hfmt = 0 ∧ t.subt = 0x00 ∧ t.crcx = ⟨0, 0, 0, 0⟩ ∧ t.crcg = ⟨0, 0, 0, 0⟩ ∧ t.crck = 0 ∧
    t.status = 0x00 ∧ t.ibuf = [] ∧ t.obuf = [] ∧ t.rxbuf = [] ∧ t.txout = []
  isReset State.reset ∧ decodeCommand 0x0100 = .rst ∧
  (∀ s, ∃ t, exec .rst s = .next t ∧ isReset t)

/-- R105, R106, R107: IB.CLR, IB.PUSH and IB.LDOB, with E_OVERFLOW where a finite IBUF has no room. -/
def Obligations.OperandBufferCommandsRun : Prop :=
  decodeCommand 0x0800 = .ibClr ∧ (∀ s, exec .ibClr s = .next { s with ibuf := [], status := 0x00 }) ∧
  (∀ b : Byte, decodeCommand (0x0900 ||| b.setWidth 16) = .ibPush b) ∧
  (∀ b s, s.params.ibufCap ≠ some s.ibuf.length →
    exec (.ibPush b) s = .next { s with ibuf := s.ibuf ++ [b], status := 0x00 }) ∧
  (∀ b s, s.params.ibufCap = some s.ibuf.length →
    exec (.ibPush b) s = .next { s with status := 0x87 }) ∧
  decodeCommand 0x0A00 = .ibLdob ∧
  (∀ s, (∀ cap, s.params.ibufCap = some cap → s.obuf.length ≤ cap) →
    exec .ibLdob s = .next { s with ibuf := s.obuf, status := 0x00 }) ∧
  (∀ s cap, s.params.ibufCap = some cap → cap < s.obuf.length →
    exec .ibLdob s = .next { s with status := 0x87 })

/-- R108, R110, R111, R112: each ARG.SETn writes its lane and keeps the other 24 bits. -/
def Obligations.ArgLanesRun : Prop :=
  (∀ b : Byte, decodeCommand (0x0C00 ||| b.setWidth 16) = .argSet0 b ∧
    decodeCommand (0x0D00 ||| b.setWidth 16) = .argSet1 b ∧
    decodeCommand (0x0E00 ||| b.setWidth 16) = .argSet2 b ∧
    decodeCommand (0x0F00 ||| b.setWidth 16) = .argSet3 b) ∧
  (∀ (b : Byte) s,
    exec (.argSet0 b) s =
      .next { s with arg := (s.arg &&& 0xFFFFFF00) ||| b.setWidth 32, status := 0x00 } ∧
    exec (.argSet1 b) s =
      .next { s with arg := (s.arg &&& 0xFFFF00FF) ||| (b.setWidth 32 <<< 8), status := 0x00 } ∧
    exec (.argSet2 b) s =
      .next { s with arg := (s.arg &&& 0xFF00FFFF) ||| (b.setWidth 32 <<< 16), status := 0x00 } ∧
    exec (.argSet3 b) s =
      .next { s with arg := (s.arg &&& 0x00FFFFFF) ||| (b.setWidth 32 <<< 24), status := 0x00 })

/-- R109, R116 to R119: each HDR.SETn writes its byte of HDR and nothing else but STATUS. -/
def Obligations.HeaderBytesRun : Prop :=
  (∀ b : Byte, decodeCommand (0x2800 ||| b.setWidth 16) = .hdrSet0 b ∧
    decodeCommand (0x2900 ||| b.setWidth 16) = .hdrSet1 b ∧
    decodeCommand (0x2A00 ||| b.setWidth 16) = .hdrSet2 b ∧
    decodeCommand (0x2B00 ||| b.setWidth 16) = .hdrSet3 b ∧
    decodeCommand (0x2C00 ||| b.setWidth 16) = .hdrSet4 b) ∧
  (∀ (b : Byte) s,
    exec (.hdrSet0 b) s = .next { s with hdr := { s.hdr with b0 := b }, status := 0x00 } ∧
    exec (.hdrSet1 b) s = .next { s with hdr := { s.hdr with b1 := b }, status := 0x00 } ∧
    exec (.hdrSet2 b) s = .next { s with hdr := { s.hdr with b2 := b }, status := 0x00 } ∧
    exec (.hdrSet3 b) s = .next { s with hdr := { s.hdr with b3 := b }, status := 0x00 } ∧
    exec (.hdrSet4 b) s = .next { s with hdr := { s.hdr with b4 := b }, status := 0x00 })

/-- R113, R114, R115: RX.PUSH drops the four flow-control bytes even on a full buffer, refuses others on a full
buffer, appends otherwise; RX.CLR empties RXBUF. -/
def Obligations.ReceiveBufferCommandsRun : Prop :=
  let fc : Byte → Prop := fun b => b = 0x11 ∨ b = 0x13 ∨ b = 0x91 ∨ b = 0x93
  (∀ b : Byte, decodeCommand (0x4000 ||| b.setWidth 16) = .rxPush b) ∧
  (∀ b s, fc b → exec (.rxPush b) s = .next { s with status := 0x00 }) ∧
  (∀ b s, ¬ fc b → s.params.rxbufCap = some s.rxbuf.length →
    exec (.rxPush b) s = .next { s with status := 0x87 }) ∧
  (∀ b s, ¬ fc b → s.params.rxbufCap ≠ some s.rxbuf.length →
    exec (.rxPush b) s = .next { s with rxbuf := s.rxbuf ++ [b], status := 0x00 }) ∧
  decodeCommand 0x4100 = .rxClr ∧ (∀ s, exec .rxClr s = .next { s with rxbuf := [], status := 0x00 })

/-- R120, R121, R124, R125: PACK16 is big-endian and refuses `ARG > 0xFFFF`; PACK32 is little-endian. -/
def Obligations.PackCommandsRun : Prop :=
  decodeCommand 0x1000 = .pack16 ∧ decodeCommand 0x1200 = .pack32 ∧
  (∀ s, s.arg.toNat ≤ 0xFFFF →
    exec .pack16 s =
      .next { s with obuf := [s.arg.extractLsb' 8 8, s.arg.extractLsb' 0 8], status := 0x00 }) ∧
  (∀ s, 0xFFFF < s.arg.toNat → exec .pack16 s = .next { s with status := 0x81 }) ∧
  (∀ s, exec .pack32 s =
    .next { s with
      obuf := [s.arg.extractLsb' 0 8, s.arg.extractLsb' 8 8, s.arg.extractLsb' 16 8, s.arg.extractLsb' 24 8],
      status := 0x00 })

/-- R122, R123, R126, R127: UNPACK16 needs exactly 2 bytes and UNPACK32 exactly 4, else E_LEN. -/
def Obligations.UnpackCommandsRun : Prop :=
  decodeCommand 0x1100 = .unpack16 ∧ decodeCommand 0x1300 = .unpack32 ∧
  (∀ s a b, s.ibuf = [a, b] →
    exec .unpack16 s = .next { s with arg := BitVec.ofNat 32 (a.toNat * 256 + b.toNat), status := 0x00 }) ∧
  (∀ s, s.ibuf.length ≠ 2 → exec .unpack16 s = .next { s with status := 0x88 }) ∧
  (∀ s a b c d, s.ibuf = [a, b, c, d] →
    exec .unpack32 s =
      .next { s with
        arg := BitVec.ofNat 32 (a.toNat + b.toNat * 2 ^ 8 + c.toNat * 2 ^ 16 + d.toNat * 2 ^ 24),
        status := 0x00 }) ∧
  (∀ s, s.ibuf.length ≠ 4 → exec .unpack32 s = .next { s with status := 0x88 })

/-- R128 to R131: HEX.ENC writes two lower-case digits a byte, high nibble first; HEX.DEC gives back what HEX.ENC
wrote, and raises E_HEXFMT on an odd length or on a byte outside `0` to `9` and `a` to `f`. -/
def Obligations.HexCommandsRun : Prop :=
  let digits : List Byte :=
    [0x30, 0x31, 0x32, 0x33, 0x34, 0x35, 0x36, 0x37, 0x38, 0x39, 0x61, 0x62, 0x63, 0x64, 0x65, 0x66]
  let spelled : List Byte → List Byte := fun r =>
    r.flatMap fun b => [digits.getD (b.toNat / 16) 0, digits.getD (b.toNat % 16) 0]
  decodeCommand 0x1400 = .hexEnc ∧ decodeCommand 0x1500 = .hexDec ∧
  (∀ s, exec .hexEnc s = .next { s with obuf := spelled s.ibuf, status := 0x00 }) ∧
  (∀ s r, s.ibuf = spelled r → exec .hexDec s = .next { s with obuf := r, status := 0x00 }) ∧
  (∀ s, (s.ibuf.length % 2 = 1 ∨ ∃ c ∈ s.ibuf, c ∉ digits) →
    exec .hexDec s = .next { s with status := 0x84 })

/-- R145, R150: CRC16 and CRC32 leave the bytes in OBUF and the value in ARG; with the corner cases the two rules
print, and the spot values of the two tables (R141, R147). -/
def Obligations.CrcCommandsRun : Prop :=
  decodeCommand 0x1800 = .crc16 ∧ decodeCommand 0x1900 = .crc32 ∧
  (∀ s, exec .crc16 s =
    .next { s with
      obuf := [(crc16v s.ibuf).extractLsb' 8 8, (crc16v s.ibuf).extractLsb' 0 8],
      arg := (crc16v s.ibuf).setWidth 32, status := 0x00 }) ∧
  (∀ s, exec .crc32 s =
    .next { s with
      obuf := [(crc32v s.ibuf).extractLsb' 0 8, (crc32v s.ibuf).extractLsb' 8 8,
        (crc32v s.ibuf).extractLsb' 16 8, (crc32v s.ibuf).extractLsb' 24 8],
      arg := crc32v s.ibuf, status := 0x00 }) ∧
  (∀ n, crc16v (List.replicate n 0x00) = 0x0000) ∧ (∀ b, crc16v [b] = t16 b) ∧
  crc16v [0x31, 0x32, 0x33, 0x34, 0x35, 0x36, 0x37, 0x38, 0x39] = 0x31C3 ∧
  crc32v [] = 0x00000000 ∧ crc32v [0x00] = 0xD202EF8D ∧ crc32v [0xFF, 0xFF, 0xFF, 0xFF] = 0xFFFFFFFF ∧
  crc32 [0x00, 0x00, 0x00, 0x00, 0x00] = [0x1D, 0xF7, 0x22, 0xC6] ∧
  crc32v [0x31, 0x32, 0x33, 0x34, 0x35, 0x36, 0x37, 0x38, 0x39] = 0xCBF43926 ∧
  t16 0x00 = 0x0000 ∧ t16 0x01 = 0x1021 ∧ t16 0x02 = 0x2042 ∧ t16 0x10 = 0x1231 ∧ t16 0x80 = 0x9188 ∧
  t16 0xFF = 0x1EF0 ∧
  t32 0x00 = 0x00000000 ∧ t32 0x01 = 0x77073096 ∧ t32 0x02 = 0xEE0E612C ∧ t32 0x80 = 0xEDB88320 ∧
  t32 0xFF = 0x2D02EF8D

/-- R151, R152, R153: VFY16 and VFY32 read IBUF as data and the CRC of it; good, E_CRC with both values recorded,
or E_LEN. -/
def Obligations.VerifyCommandsRun : Prop :=
  decodeCommand 0x1A00 = .vfy16 ∧ decodeCommand 0x1B00 = .vfy32 ∧
  (∀ s data, s.ibuf = data ++ crc16 data → exec .vfy16 s = .next { s with status := 0x00 }) ∧
  (∀ s data g0 g1, s.ibuf = data ++ [g0, g1] → crc16 data ≠ [g0, g1] →
    exec .vfy16 s =
      .next { s with
        crcx := ⟨(crc16v data).extractLsb' 8 8, (crc16v data).extractLsb' 0 8, 0, 0⟩,
        crcg := ⟨g0, g1, 0, 0⟩, crck := 0, status := 0x82 }) ∧
  (∀ s, s.ibuf.length < 2 → exec .vfy16 s = .next { s with status := 0x88 }) ∧
  (∀ s data, s.ibuf = data ++ crc32 data → exec .vfy32 s = .next { s with status := 0x00 }) ∧
  (∀ s data g0 g1 g2 g3, s.ibuf = data ++ [g0, g1, g2, g3] → crc32 data ≠ [g0, g1, g2, g3] →
    exec .vfy32 s =
      .next { s with
        crcx := ⟨(crc32v data).extractLsb' 0 8, (crc32v data).extractLsb' 8 8,
          (crc32v data).extractLsb' 16 8, (crc32v data).extractLsb' 24 8⟩,
        crcg := ⟨g0, g1, g2, g3⟩, crck := 1, status := 0x82 }) ∧
  (∀ s, s.ibuf.length < 4 → exec .vfy32 s = .next { s with status := 0x88 })

/-- R165, R166, R167: ZCLS reports the class code of its byte under CFG; ZENC encodes IBUF into OBUF and moves
LASTCODE on, leaving IBUF and TXOUT; the encoder byte by byte, as R166 prints its loop. -/
def Obligations.EncoderCommandsRun : Prop :=
  (∀ b : Byte, decodeCommand (0x2200 ||| b.setWidth 16) = .zcls b) ∧ decodeCommand 0x2000 = .zenc ∧
  (∀ b s, exec (.zcls b) s =
    .next { s with
      arg := (match escClass b (s.cfg.getLsbD 0) (s.cfg.getLsbD 1) with
        | .never => 0 | .always => 1 | .afterAt => 2),
      status := 0x00 }) ∧
  (∀ s, exec .zenc s =
    .next { s with
      obuf := (zencode (s.cfg.getLsbD 0) (s.cfg.getLsbD 1) s.lastcode s.ibuf).1,
      lastcode := s.ibuf.getLastD s.lastcode, status := 0x00 }) ∧
  (∀ e t last, zencode e t last [] = ([], last)) ∧
  (∀ e t last c rest, zencode e t last (c :: rest) =
    ((if escClass c e t = .always ∨ (escClass c e t = .afterAt ∧ last &&& 0x7F = 0x40) then
        [0x18, c ^^^ 0x40]
      else [c]) ++ (zencode e t c rest).1,
     (zencode e t c rest).2)) ∧
  (∀ e t last x, (zencode e t last x).2 = x.getLastD last)

/-- R168, R170, R172, R173: ZDEC decodes IBUF or raises E_BADESC; RX.SPLICE takes `n` logical bytes off RXBUF or
answers INCOMPLETE with nothing changed; the decoder and the splice as R168 and R172 print their loops. -/
def Obligations.DecoderCommandsRun : Prop :=
  decodeCommand 0x2100 = .zdec ∧ (∀ n : Byte, decodeCommand (0x4700 ||| n.setWidth 16) = .rxSplice n) ∧
  (∀ s r, zdecode s.ibuf = some r → exec .zdec s = .next { s with obuf := r, status := 0x00 }) ∧
  (∀ s, zdecode s.ibuf = none → exec .zdec s = .next { s with status := 0x86 }) ∧
  (∀ (n : Byte) s out i, splice n.toNat s.rxbuf = some (out, i) →
    exec (.rxSplice n) s = .next { s with obuf := out, rxbuf := s.rxbuf.drop i, status := 0x00 }) ∧
  (∀ (n : Byte) s, splice n.toNat s.rxbuf = none →
    exec (.rxSplice n) s = .next { s with status := 0x01 }) ∧
  zdecode [] = some [] ∧ zdecode [0x18] = none ∧
  (∀ f raw, zdecode (0x18 :: f :: raw) = (zdecode raw).map ((f - 0x40) :: ·)) ∧
  (∀ b raw, b ≠ 0x18 → zdecode (b :: raw) = (zdecode raw).map (b :: ·)) ∧
  (∀ raw, splice 0 raw = some ([], 0)) ∧
  (∀ n, splice (n + 1) [] = none ∧ splice (n + 1) [0x18] = none) ∧
  (∀ n f raw, splice (n + 1) (0x18 :: f :: raw) =
    (splice n raw).map fun r => ((f - 0x40) :: r.1, r.2 + 2)) ∧
  (∀ n b raw, b ≠ 0x18 → splice (n + 1) (b :: raw) =
    (splice n raw).map fun r => (b :: r.1, r.2 + 1))

/-- R191, R192, R193: TX.HEX appends the hex header of HDR with the line ending selected, and selector 3 is an
illegal word. -/
def Obligations.HexHeaderSent : Prop :=
  let h : State → List Byte := fun s => [s.hdr.b0, s.hdr.b1, s.hdr.b2, s.hdr.b3, s.hdr.b4]
  let body : State → List Byte := fun s =>
    [0x2A, 0x2A, 0x18, 0x42] ++ hexEncode (h s ++ crc16 (h s))
  decodeCommand 0x3000 = .txHex 0 ∧ decodeCommand 0x3001 = .txHex 1 ∧ decodeCommand 0x3002 = .txHex 2 ∧
  (∀ s, exec (.txHex 0) s =
      .next { s with txout := s.txout ++ (body s ++ [0x0D, 0x0A, 0x11]), status := 0x00 } ∧
    exec (.txHex 1) s =
      .next { s with txout := s.txout ++ (body s ++ [0x0D, 0x0A]), status := 0x00 } ∧
    exec (.txHex 2) s =
      .next { s with txout := s.txout ++ (body s ++ [0x0A]), status := 0x00 } ∧
    (body s).length = 18) ∧
  (∀ (cw : CommandWord) s, cw.extractLsb' 8 8 = 0x30#8 →
    (cw.extractLsb' 2 6 ≠ 0#6 ∨ cw.extractLsb' 0 2 = 3#2) →
    exec (decodeCommand cw) s = .next { s with status := 0x80 })

/-- R194 to R198: TX.BIN16 and TX.BIN32 append the prefix and the escaped header and CRC, and LASTCODE becomes the
last CRC byte; any type byte is framed. -/
def Obligations.BinaryHeadersSent : Prop :=
  let h : State → List Byte := fun s => [s.hdr.b0, s.hdr.b1, s.hdr.b2, s.hdr.b3, s.hdr.b4]
  let enc : State → List Byte → List Byte := fun s x =>
    (zencode (s.cfg.getLsbD 0) (s.cfg.getLsbD 1) s.lastcode x).1
  decodeCommand 0x3100 = .txBin16 ∧ decodeCommand 0x3200 = .txBin32 ∧
  (∀ s, exec .txBin16 s =
    .next { s with
      txout := s.txout ++ ([0x2A, 0x18, 0x41] ++ enc s (h s ++ crc16 (h s))),
      lastcode := (crc16v (h s)).extractLsb' 0 8, status := 0x00 }) ∧
  (∀ s, exec .txBin32 s =
    .next { s with
      txout := s.txout ++ ([0x2A, 0x18, 0x43] ++ enc s (h s ++ crc32 (h s))),
      lastcode := (crc32v (h s)).extractLsb' 24 8, status := 0x00 })

/-- R207: RX.TRIM always ends in OK, garbage in OBUF, the rest in RXBUF, the code of the start found in ARG. -/
def Obligations.TrimCommandRuns : Prop :=
  decodeCommand 0x4200 = .rxTrim ∧
  ∀ s, exec .rxTrim s =
    .next { s with
      obuf := (trim s.rxbuf).1, rxbuf := (trim s.rxbuf).2,
      arg := (match startKind (trim s.rxbuf).2 with
        | .hex => 1 | .bin16 => 2 | .bin32 => 3 | .undecided => 0 | .noStart => 0),
      status := 0x00 }

/-- R208, R209: RX.HDR at index 0 of RXBUF when no frame can be parsed there. -/
def Obligations.HeaderNotThereOutcomes : Prop :=
  decodeCommand 0x4300 = .rxHdr ∧
  (∀ s, s.rxbuf = [] → exec .rxHdr s = .next { s with status := 0x01 }) ∧
  (∀ s, startKind s.rxbuf = .undecided → exec .rxHdr s = .next { s with status := 0x01 }) ∧
  (∀ s, s.rxbuf ≠ [] → startKind s.rxbuf = .noStart → exec .rxHdr s = .next { s with status := 0x85 })

/-- R209, R214 to R218: RX.HDR on a binary-16 and on a binary-32 frame start, by what `splice` finds after the
prefix: INCOMPLETE, or the frame is consumed and then E_CRC, E_UNSUPPORTED or OK in that order. -/
def Obligations.BinaryHeaderOutcomes : Prop :=
  (∀ s, startKind s.rxbuf = .bin16 → splice 7 (s.rxbuf.drop 3) = none →
    exec .rxHdr s = .next { s with status := 0x01 }) ∧
  (∀ s h0 h1 h2 h3 h4 g0 g1 u, startKind s.rxbuf = .bin16 →
    splice 7 (s.rxbuf.drop 3) = some ([h0, h1, h2, h3, h4, g0, g1], u) →
    exec .rxHdr s = .next (
      if crc16 [h0, h1, h2, h3, h4] ≠ [g0, g1] then
        { s with
          rxbuf := s.rxbuf.drop (3 + u),
          crcx := ⟨(crc16v [h0, h1, h2, h3, h4]).extractLsb' 8 8,
            (crc16v [h0, h1, h2, h3, h4]).extractLsb' 0 8, 0, 0⟩,
          crcg := ⟨g0, g1, 0, 0⟩, crck := 0, status := 0x82 }
      else if 11 < h0.toNat then { s with rxbuf := s.rxbuf.drop (3 + u), status := 0x83 }
      else { s with
        rxbuf := s.rxbuf.drop (3 + u), rxh := ⟨h0, h1, h2, h3, h4⟩, hfmt := 2, status := 0x00 })) ∧
  (∀ s, startKind s.rxbuf = .bin32 → splice 9 (s.rxbuf.drop 3) = none →
    exec .rxHdr s = .next { s with status := 0x01 }) ∧
  (∀ s h0 h1 h2 h3 h4 g0 g1 g2 g3 u, startKind s.rxbuf = .bin32 →
    splice 9 (s.rxbuf.drop 3) = some ([h0, h1, h2, h3, h4, g0, g1, g2, g3], u) →
    exec .rxHdr s = .next (
      if crc32 [h0, h1, h2, h3, h4] ≠ [g0, g1, g2, g3] then
        { s with
          rxbuf := s.rxbuf.drop (3 + u),
          crcx := ⟨(crc32v [h0, h1, h2, h3, h4]).extractLsb' 0 8,
            (crc32v [h0, h1, h2, h3, h4]).extractLsb' 8 8,
            (crc32v [h0, h1, h2, h3, h4]).extractLsb' 16 8,
            (crc32v [h0, h1, h2, h3, h4]).extractLsb' 24 8⟩,
          crcg := ⟨g0, g1, g2, g3⟩, crck := 1, status := 0x82 }
      else if 11 < h0.toNat then { s with rxbuf := s.rxbuf.drop (3 + u), status := 0x83 }
      else { s with
        rxbuf := s.rxbuf.drop (3 + u), rxh := ⟨h0, h1, h2, h3, h4⟩, hfmt := 3, status := 0x00 }))

/-- R211, R212, R213: RX.HDR on a hex frame start while it is not delimited or badly delimited: no LF among the
first 20 bytes, or the first LF at an index `j` below 20 that makes no frame, or digits that do not decode. -/
def Obligations.HexFramingOutcomes : Prop :=
  (∀ s, startKind s.rxbuf = .hex → s.rxbuf.length < 20 → 0x0A ∉ s.rxbuf →
    exec .rxHdr s = .next { s with status := 0x01 }) ∧
  (∀ s, startKind s.rxbuf = .hex → 20 ≤ s.rxbuf.length → 0x0A ∉ s.rxbuf.take 20 →
    exec .rxHdr s = .next { s with rxbuf := s.rxbuf.drop 4, status := 0x84 }) ∧
  (∀ s j, startKind s.rxbuf = .hex → j < 20 → s.rxbuf[j]? = some 0x0A → 0x0A ∉ s.rxbuf.take j →
    ¬ (j = 18 ∨ (j = 19 ∧ s.rxbuf[18]? = some 0x0D)) →
    exec .rxHdr s = .next { s with rxbuf := s.rxbuf.drop (j + 1), status := 0x84 }) ∧
  (∀ s j, startKind s.rxbuf = .hex → s.rxbuf[j]? = some 0x0A → 0x0A ∉ s.rxbuf.take j →
    (j = 18 ∨ (j = 19 ∧ s.rxbuf[18]? = some 0x0D)) → hexDecode ((s.rxbuf.take 18).drop 4) = none →
    exec .rxHdr s = .next { s with rxbuf := s.rxbuf.drop (j + 1), status := 0x84 })

/-- R212, R213, R215 to R218: RX.HDR on a well-delimited hex header: the line is consumed and then E_CRC,
E_UNSUPPORTED or OK, in that order. -/
def Obligations.HexHeaderOutcomes : Prop :=
  ∀ s j h0 h1 h2 h3 h4 g0 g1, startKind s.rxbuf = .hex → s.rxbuf[j]? = some 0x0A → 0x0A ∉ s.rxbuf.take j →
    (j = 18 ∨ (j = 19 ∧ s.rxbuf[18]? = some 0x0D)) →
    hexDecode ((s.rxbuf.take 18).drop 4) = some [h0, h1, h2, h3, h4, g0, g1] →
    exec .rxHdr s = .next (
      if crc16 [h0, h1, h2, h3, h4] ≠ [g0, g1] then
        { s with
          rxbuf := s.rxbuf.drop (j + 1),
          crcx := ⟨(crc16v [h0, h1, h2, h3, h4]).extractLsb' 8 8,
            (crc16v [h0, h1, h2, h3, h4]).extractLsb' 0 8, 0, 0⟩,
          crcg := ⟨g0, g1, 0, 0⟩, crck := 0, status := 0x82 }
      else if 11 < h0.toNat then { s with rxbuf := s.rxbuf.drop (j + 1), status := 0x83 }
      else { s with
        rxbuf := s.rxbuf.drop (j + 1), rxh := ⟨h0, h1, h2, h3, h4⟩, hfmt := 1, status := 0x00 })

/-- R231, R233, R234, R235: TX.SUB16 and TX.SUB32 append the escaped payload, the raw marker `18 t` with
`t = 0x68 + sel`, and the escaped CRC; the context runs from the payload into the CRC past the marker. -/
def Obligations.SubpacketsSent : Prop :=
  let t : BitVec 2 → Byte := fun sel => 0x68 + sel.setWidth 8
  let enc : State → Byte → List Byte → List Byte := fun s last x =>
    (zencode (s.cfg.getLsbD 0) (s.cfg.getLsbD 1) last x).1
  (∀ sel : BitVec 2, decodeCommand (0x3400 ||| sel.setWidth 16) = .txSub16 sel ∧
    decodeCommand (0x3500 ||| sel.setWidth 16) = .txSub32 sel) ∧
  (∀ sel s, exec (.txSub16 sel) s =
    .next { s with
      txout := s.txout ++ (enc s s.lastcode s.ibuf ++ [0x18, t sel] ++
        enc s (s.ibuf.getLastD s.lastcode) (crc16 (s.ibuf ++ [t sel]))),
      lastcode := (crc16v (s.ibuf ++ [t sel])).extractLsb' 0 8, status := 0x00 }) ∧
  (∀ sel s, exec (.txSub32 sel) s =
    .next { s with
      txout := s.txout ++ (enc s s.lastcode s.ibuf ++ [0x18, t sel] ++
        enc s (s.ibuf.getLastD s.lastcode) (crc32 (s.ibuf ++ [t sel]))),
      lastcode := (crc32v (s.ibuf ++ [t sel])).extractLsb' 24 8, status := 0x00 }) ∧
  (∀ (cw : CommandWord) s, (cw.extractLsb' 8 8 = 0x34#8 ∨ cw.extractLsb' 8 8 = 0x35#8) →
    cw.extractLsb' 2 6 ≠ 0#6 → exec (decodeCommand cw) s = .next { s with status := 0x80 })

/-- R237, R238: RX.SCAN finds the smallest index of a ZDLE followed by a terminator byte, reports it (modulo 2^32:
the model's choice, log 5) and its byte, and changes neither RXBUF nor, when there is none, anything but STATUS. -/
def Obligations.ScanCommandRuns : Prop :=
  let marker : List Byte → Nat → Byte → Prop := fun b i t =>
    b[i]? = some 0x18 ∧ b[i + 1]? = some t ∧ 0x68 ≤ t ∧ t ≤ 0x6B
  decodeCommand 0x4600 = .rxScan ∧
  (∀ s i t, marker s.rxbuf i t → (∀ j < i, ∀ t', ¬ marker s.rxbuf j t') →
    exec .rxScan s = .next { s with arg := BitVec.ofNat 32 i, subt := t, status := 0x00 }) ∧
  (∀ s, (∀ j t', ¬ marker s.rxbuf j t') → exec .rxScan s = .next { s with status := 0x01 })

/-- R240 to R244: RX.SUB16 by what the scan, the splice and the decoder find. -/
def Obligations.Subpacket16Outcomes : Prop :=
  decodeCommand 0x4400 = .rxSub16 ∧
  (∀ s, scanTerm s.rxbuf = none → exec .rxSub16 s = .next { s with status := 0x01 }) ∧
  (∀ s i, scanTerm s.rxbuf = some i → splice 2 (s.rxbuf.drop (i + 2)) = none →
    exec .rxSub16 s = .next { s with status := 0x01 }) ∧
  (∀ s i g0 g1 u, scanTerm s.rxbuf = some i → splice 2 (s.rxbuf.drop (i + 2)) = some ([g0, g1], u) →
    zdecode (s.rxbuf.take i) = none →
    exec .rxSub16 s = .next { s with rxbuf := s.rxbuf.drop (i + 2 + u), status := 0x86 }) ∧
  (∀ s i t g0 g1 u p, scanTerm s.rxbuf = some i → s.rxbuf[i + 1]? = some t →
    splice 2 (s.rxbuf.drop (i + 2)) = some ([g0, g1], u) → zdecode (s.rxbuf.take i) = some p →
    exec .rxSub16 s = .next (
      if crc16 (p ++ [t]) ≠ [g0, g1] then
        { s with
          rxbuf := s.rxbuf.drop (i + 2 + u),
          crcx := ⟨(crc16v (p ++ [t])).extractLsb' 8 8, (crc16v (p ++ [t])).extractLsb' 0 8, 0, 0⟩,
          crcg := ⟨g0, g1, 0, 0⟩, crck := 0, status := 0x82 }
      else { s with rxbuf := s.rxbuf.drop (i + 2 + u), obuf := p, subt := t, status := 0x00 }))

/-- R245, with R241 to R244 at four CRC bytes: RX.SUB32. -/
def Obligations.Subpacket32Outcomes : Prop :=
  decodeCommand 0x4500 = .rxSub32 ∧
  (∀ s, scanTerm s.rxbuf = none → exec .rxSub32 s = .next { s with status := 0x01 }) ∧
  (∀ s i, scanTerm s.rxbuf = some i → splice 4 (s.rxbuf.drop (i + 2)) = none →
    exec .rxSub32 s = .next { s with status := 0x01 }) ∧
  (∀ s i g0 g1 g2 g3 u, scanTerm s.rxbuf = some i →
    splice 4 (s.rxbuf.drop (i + 2)) = some ([g0, g1, g2, g3], u) → zdecode (s.rxbuf.take i) = none →
    exec .rxSub32 s = .next { s with rxbuf := s.rxbuf.drop (i + 2 + u), status := 0x86 }) ∧
  (∀ s i t g0 g1 g2 g3 u p, scanTerm s.rxbuf = some i → s.rxbuf[i + 1]? = some t →
    splice 4 (s.rxbuf.drop (i + 2)) = some ([g0, g1, g2, g3], u) → zdecode (s.rxbuf.take i) = some p →
    exec .rxSub32 s = .next (
      if crc32 (p ++ [t]) ≠ [g0, g1, g2, g3] then
        { s with
          rxbuf := s.rxbuf.drop (i + 2 + u),
          crcx := ⟨(crc32v (p ++ [t])).extractLsb' 0 8, (crc32v (p ++ [t])).extractLsb' 8 8,
            (crc32v (p ++ [t])).extractLsb' 16 8, (crc32v (p ++ [t])).extractLsb' 24 8⟩,
          crcg := ⟨g0, g1, g2, g3⟩, crck := 1, status := 0x82 }
      else { s with rxbuf := s.rxbuf.drop (i + 2 + u), obuf := p, subt := t, status := 0x00 }))

/-- R90, R262: a word is decoded as illegal exactly when R90 calls it so, and an illegal word writes STATUS 0x80
and changes nothing else. -/
def Obligations.IllegalWordsRun : Prop :=
  (∀ cw, decodeCommand cw = .illegal cw ↔ illegalWord cw = true) ∧
  (∀ cw s, exec (.illegal cw) s = .next { s with status := 0x80 })

/-- The wire rows (log 3, a choice of the model): a pattern that arrives is RX.PUSH of each of its bytes (R96,
R270). With room in RXBUF each row appends its bytes, the XON excepted (R114), and ends in OK. -/
def Obligations.WireRowsRun : Prop :=
  let rows : List (Instr × List Byte) :=
    [(.wirePfxHex, [0x2A, 0x2A, 0x18, 0x42]), (.wirePfxBin16, [0x2A, 0x18, 0x41]),
     (.wirePfxBin32, [0x2A, 0x18, 0x43]), (.wireEol0, [0x0D, 0x0A, 0x11]), (.wireEol1, [0x0D, 0x0A]),
     (.wireEol2, [0x0A])]
  let room : State → Nat → Prop := fun s n =>
    ∀ cap, s.params.rxbufCap = some cap → s.rxbuf.length + n ≤ cap
  (∀ r ∈ rows, ∀ s, exec r.1 s = execAll (r.2.map .rxPush) s) ∧
  (∀ (k : BitVec 2) s, exec (.wireTerm k) s = execAll [.rxPush 0x18, .rxPush (0x68 + k.setWidth 8)] s) ∧
  (∀ (f : Byte) s, exec (.wireEsc f) s = execAll [.rxPush 0x18, .rxPush f] s) ∧
  (∀ r ∈ rows, ∀ s, room s r.2.length →
    exec r.1 s = .next { s with rxbuf := s.rxbuf ++ r.2.filter (· ≠ 0x11), status := 0x00 }) ∧
  (∀ (k : BitVec 2) s, room s 2 →
    exec (.wireTerm k) s =
      .next { s with rxbuf := s.rxbuf ++ [0x18, 0x68 + k.setWidth 8], status := 0x00 }) ∧
  (∀ (f : Byte) s, f &&& 0x60 = 0x40 → room s 2 →
    exec (.wireEsc f) s = .next { s with rxbuf := s.rxbuf ++ [0x18, f], status := 0x00 })

/-! ### The step -/

/-- R71: when the code the host presents decodes to an instruction, the step is exec of it, at the state with that
action taken (the list of actions is the model's, log 1); a command word always decodes; and a legal command word
placed by withFetchWord (log 4) is what the very next step runs. -/
def Obligations.StepRunsTheDecodedInstruction : Prop :=
  (∀ s c i rest, s.pending = .present c :: rest → decode c = .ok i →
    step s = exec i { s with pending := rest }) ∧
  (∀ s cw rest, s.pending = .present (.word cw) :: rest →
    step s = exec (decodeCommand cw) { s with pending := rest }) ∧
  (∀ (s : State) (cw : CommandWord), illegalWord cw = false →
    step (s.withFetchWord 16 cw.toNat) = exec (decodeCommand cw) s)

/-- R279, R290, and log 1: with nothing pending the block keeps all its state; the reset input resets every field of
the block and leaves the parameters and the actions after it; unrecognised line bytes are fed (log 3). -/
def Obligations.StepWithoutAnInstruction : Prop :=
  (∀ s, s.pending = [] → step s = .next s) ∧
  (∀ s rest, s.pending = .resetInput :: rest →
    step s = .next { State.reset with params := s.params, pending := rest }) ∧
  (∀ s bytes rest, s.pending = .present (.wire bytes) :: rest → decodeWire bytes = none →
    step s = execAll (bytes.map .rxPush) { s with pending := rest })

/-! ### Encoding -/

/-- R74: a word of each row of the opcode map, written from the table, decodes to the row's instruction. -/
def Obligations.WrittenWordsDecode : Prop :=
  decodeCommand 0x0000 = .nop ∧ decodeCommand 0x0203 = .cfg 3 ∧ decodeCommand 0x0941 = .ibPush 0x41 ∧
  decodeCommand 0x0FAA = .argSet3 0xAA ∧ decodeCommand 0x1300 = .unpack32 ∧ decodeCommand 0x1B00 = .vfy32 ∧
  decodeCommand 0x220D = .zcls 0x0D ∧ decodeCommand 0x2CA4 = .hdrSet4 0xA4 ∧ decodeCommand 0x3002 = .txHex 2 ∧
  decodeCommand 0x3503 = .txSub32 3 ∧ decodeCommand 0x4300 = .rxHdr ∧ decodeCommand 0x4707 = .rxSplice 7 ∧
  decodeCommand 0x3003 = .illegal 0x3003 ∧
  decode (.wire [0x2A, 0x18, 0x43]) = .ok .wirePfxBin32 ∧
  decode (.wire [0x18, 0x6B]) = .ok (.wireTerm 3) ∧ decode (.wire [0x18, 0xD8]) = .ok (.wireEsc 0xD8)

/-- Decode and encode agree: every well-formed instruction of every family is what its encoding decodes to. -/
def Obligations.DecodeEncodeAgree : Prop :=
  ∀ i : Instr, i.wellFormed = true → decode (encode i) = .ok i

/-- R71: every one of the 65536 words decodes to a well-formed instruction that is no wire row and whose encoding
is that word, so to exactly one row. -/
def Obligations.EveryWordHasOneMeaning : Prop :=
  ∀ cw : CommandWord,
    encode (decodeCommand cw) = .word cw ∧ (decodeCommand cw).wellFormed = true ∧
    ((decodeCommand cw).isCommand = true ∨ decodeCommand cw = .illegal cw)

/-- A byte sequence decodes to at most one wire row, whose encoding is that sequence, and to a well-formed one. -/
def Obligations.WirePatternsAreUnambiguous : Prop :=
  ∀ bytes i, decodeWire bytes = some i → encode i = .wire bytes ∧ i.wellFormed = true ∧ i.isCommand = false

/-! ### Rules about the whole machine -/

/-- R13, R19: every instruction completes on every state and every operand, and every step does (what a step takes
is log 1; terms no encoding stands for are log 6). -/
def Obligations.EveryInstructionCompletes : Prop :=
  (∀ i s, ∃ t, exec i s = .next t) ∧ ∀ s, SafeStep s

/-- R280: a well-formed instruction ends only in the codes its row of the matrix lists (a wire row, by log 3, in
those of RX.PUSH), and E_OVERFLOW appears only with a finite capacity. -/
def Obligations.OutcomesAreInTheMatrix : Prop :=
  ∀ i s t, i.wellFormed = true → exec i s = .next t →
    t.status ∈ outcomeMatrix i ∧
    (t.status = 0x87 → s.params.ibufCap ≠ none ∨ s.params.rxbufCap ≠ none)

/-- R13, R264: a command that does not end in OK changes nothing but STATUS, except that E_CRC records the two CRCs
and that a frame error of RX.HDR, RX.SUB16 or RX.SUB32 removes bytes from the front of RXBUF. -/
def Obligations.FailureChangesOnlyStatus : Prop :=
  ∀ i s t, i.isCommand = true → exec i s = .next t → t.status ≠ 0x00 →
    t = { s with status := t.status } ∨
    (mayRaiseCrc i = true ∧ t.status = 0x82 ∧ (parsesFrame i = true ∨ t.rxbuf = s.rxbuf) ∧
      t.rxbuf <:+ s.rxbuf ∧
      t = { s with rxbuf := t.rxbuf, crcx := t.crcx, crcg := t.crcg, crck := t.crck, status := 0x82 }) ∨
    (parsesFrame i = true ∧ (t.status = 0x83 ∨ t.status = 0x84 ∨ t.status = 0x86) ∧
      t.rxbuf <:+ s.rxbuf ∧ t = { s with rxbuf := t.rxbuf, status := t.status })

/-- R22, R23, R28, R40: ARG, HDR, CFG and LASTCODE are written by the instructions listed and by no other. -/
def Obligations.OperandRegisterFrame : Prop :=
  ∀ i s t, exec i s = .next t →
    (mayWriteArg i = false → t.arg = s.arg) ∧ (mayWriteHdr i = false → t.hdr = s.hdr) ∧
    (mayWriteCfg i = false → t.cfg = s.cfg) ∧ (mayWriteLastcode i = false → t.lastcode = s.lastcode)

/-- R24, R30, R31, R32: but for RST, RXH and HFMT change only by RX.HDR ending in OK, SUBT only by RX.SUB16,
RX.SUB32 and RX.SCAN ending in OK, CRCX, CRCG and CRCK only by a command that raises E_CRC. -/
def Obligations.ResultRegisterFrame : Prop :=
  ∀ i s t, exec i s = .next t → i ≠ .rst →
    (¬ (i = .rxHdr ∧ t.status = 0x00) → t.rxh = s.rxh ∧ t.hfmt = s.hfmt) ∧
    (¬ (mayWriteSubt i = true ∧ t.status = 0x00) → t.subt = s.subt) ∧
    (¬ (mayRaiseCrc i = true ∧ t.status = 0x82) → t.crcx = s.crcx ∧ t.crcg = s.crcg ∧ t.crck = s.crck)

/-- R35 to R38: IBUF is written by IB.CLR, IB.PUSH and IB.LDOB only, OBUF by a producing command ending in OK only,
RXBUF is consumed from the front by the parsers and extended at the end by arrivals (a wire row is one, log 3),
TXOUT only grows, and only by the senders; RST excepted, and RX.CLR for RXBUF. -/
def Obligations.BufferFrame : Prop :=
  ∀ i s t, exec i s = .next t → i ≠ .rst →
    (mayWriteIbuf i = false → t.ibuf = s.ibuf) ∧
    (¬ (producesObuf i = true ∧ t.status = 0x00) → t.obuf = s.obuf) ∧
    (i ≠ .rxClr → consumesRxbuf i = false → appendsRxbuf i = false → t.rxbuf = s.rxbuf) ∧
    (consumesRxbuf i = true → t.rxbuf <:+ s.rxbuf) ∧ (appendsRxbuf i = true → s.rxbuf <+: t.rxbuf) ∧
    (transmits i = false → t.txout = s.txout) ∧ s.txout <+: t.txout

/-- R20, R21, R71 (the carrier of parameters and inputs is log 1, log 2): what an instruction does to the block is a
function of the tuple of R20 and the parameters alone; nothing it does touches, and nothing it does depends on, the
inputs still to come; and a command word presented is the step of R71 on the block, with the word as its input. -/
def Obligations.ModelFieldsFrame : Prop :=
  (∀ i s, exec i s = s.withBlock (blockExec s.params i s.toBlock)) ∧
  (∀ i s t, exec i s = .next t → t.params = s.params ∧ t.pending = s.pending) ∧
  (∀ s cw rest, s.pending = .present (.word cw) :: rest →
    step s = (s.withPending rest).withBlock (blockStep s.params s.toBlock cw))

/-- R28, R41, R171: no decoding or parsing command reads CFG or LASTCODE. -/
def Obligations.ReceiversIgnoreTheEncoder : Prop :=
  ∀ i s t (c : BitVec 2) (l : Byte),
    (consumesRxbuf i = true ∨ i = .rxScan ∨ i = .zdec ∨ i = .hexDec ∨ appendsRxbuf i = true) →
    exec i s = .next t →
    exec i { s with cfg := c, lastcode := l } = .next { t with cfg := c, lastcode := l }

/-- R25, R40: no read port shows LASTCODE: two states that differ in it alone read alike on every port. -/
def Obligations.ReadsNeverShowLastcode : Prop :=
  ∀ s (l : Byte) p, readPort { s with lastcode := l } p = readPort s p

/-! ### Invariants (what a step takes is log 1; each invariant is about the fields of R20) -/

/-- R7, R60: every step keeps the buffers within their capacities; in particular no command overflows OBUF. -/
def Obligations.StepKeepsCapacities : Prop :=
  ∀ s t, s.withinCapacities → step s = .next t → t.withinCapacities

/-- R113, R114, R210, R310: every step keeps RXBUF free of flow-control bytes. -/
def Obligations.StepKeepsRxbufFiltered : Prop :=
  ∀ s t, s.rxbufFiltered → step s = .next t → t.rxbufFiltered

/-- R29 to R32, R216, R261: every step keeps STATUS a code of the list, SUBT zero or a terminator byte, RXH a header
of a supported type, and the unused CRC bytes zero. -/
def Obligations.StepKeepsStatusRegistersLegal : Prop :=
  ∀ s t, s.statusRegistersLegal → step s = .next t → t.statusRegistersLegal

/-- R42: the state after reset meets the three invariants. -/
def Obligations.ResetMeetsTheInvariants : Prop :=
  State.reset.withinCapacities ∧ State.reset.rxbufFiltered ∧ State.reset.statusRegistersLegal

/-! ### Laws of the codec -/

/-- R133, R55: packed and loaded back, PACK16 then UNPACK16 and PACK32 then UNPACK32 return ARG, for every value
the packer accepts. -/
def Obligations.PackRoundTrips : Prop :=
  ∀ s, s.params.wellFormed = true →
    (s.arg.toNat ≤ 0xFFFF →
      execAll [.pack16, .ibLdob, .unpack16] s =
        .next { s with
          obuf := [s.arg.extractLsb' 8 8, s.arg.extractLsb' 0 8],
          ibuf := [s.arg.extractLsb' 8 8, s.arg.extractLsb' 0 8], status := 0x00 }) ∧
    execAll [.pack32, .ibLdob, .unpack32] s =
      .next { s with obuf := packU32le s.arg, ibuf := packU32le s.arg, status := 0x00 }

/-- R133: hexDecode inverts hexEncode on every sequence, and hexEncode inverts hexDecode wherever that succeeds. -/
def Obligations.HexRoundTrips : Prop :=
  (∀ s, hexDecode (hexEncode s) = some s) ∧ (∀ h s, hexDecode h = some s → hexEncode s = h)

/-- R143: the table form, the shift register and the non-augmented form of the CRC-16 agree on every sequence. -/
def Obligations.Crc16FormsAgree : Prop :=
  ∀ s, crc16v s = crc16Serial s ∧ crc16v s = crc16Direct s

/-- R164: the class table written out for the four values of CFG. -/
def Obligations.EscapeClassTable : Prop :=
  (∀ b, escClass b false false =
    if b ∈ ([0x10, 0x11, 0x13, 0x18, 0x90, 0x91, 0x93] : List Byte) then .always
    else if b ∈ ([0x0D, 0x8D] : List Byte) then .afterAt else .never) ∧
  (∀ b t, escClass b true t = if b.toNat < 0x20 ∨ (0x80 ≤ b.toNat ∧ b.toNat < 0xA0) then .always else .never) ∧
  (∀ b, escClass b false true =
    if b ∈ ([0x11, 0x13, 0x18, 0x91, 0x93] : List Byte) then .always else .never)

/-- R171: decoding gives back every sequence encoded under any configuration from any LASTCODE. -/
def Obligations.EscapeRoundTrip : Prop :=
  ∀ e t last s, zdecode (zencode e t last s).1 = some s

/-- R175, R169, R176: in an escaped stream every ZDLE is followed by a canonical follower, no two ZDLE are
adjacent, no flow-control byte stands raw, with ECC no control byte but ZDLE stands raw; and the stream is at least
as long as its source and at most twice as long. -/
def Obligations.EscapedStreamGuarantees : Prop :=
  ∀ e t last s,
    (∀ i, (zencode e t last s).1[i]? = some zdle →
      ∃ f, (zencode e t last s).1[i + 1]? = some f ∧ f &&& 0x60 = 0x40 ∧ f ≠ zdle) ∧
    (∀ b ∈ (zencode e t last s).1, b ≠ 0x11 ∧ b ≠ 0x13 ∧ b ≠ 0x91 ∧ b ≠ 0x93) ∧
    (e = true → ∀ b ∈ (zencode e t last s).1, b &&& 0x60 = 0 → b = zdle) ∧
    s.length ≤ (zencode e t last s).1.length ∧ (zencode e t last s).1.length ≤ 2 * s.length

/-- R174: splice agrees with the decoder on the raw bytes it used, is not changed by more input, stays NOT_ENOUGH
for a larger count, and takes exactly an encoded sequence off a stream. -/
def Obligations.SpliceLaws : Prop :=
  (∀ n s out i, splice n s = some (out, i) →
    zdecode (s.take i) = some out ∧ out.length = n ∧ n ≤ i ∧ i ≤ 2 * n ∧ i ≤ s.length) ∧
  (∀ n s out i u, splice n s = some (out, i) → splice n (s ++ u) = some (out, i)) ∧
  (∀ n m s, splice n s = none → n < m → splice m s = none) ∧
  (∀ e t last x u, splice x.length ((zencode e t last x).1 ++ u) = some (x, (zencode e t last x).1.length))

/-- R200: what startKind recognises, with the four undecided sequences listed. -/
def Obligations.FrameStartsRecognised : Prop :=
  ∀ s,
    (startKind s = .hex ↔ [0x2A, 0x2A, 0x18, 0x42] <+: s) ∧
    (startKind s = .bin16 ↔ [0x2A, 0x18, 0x41] <+: s) ∧
    (startKind s = .bin32 ↔ [0x2A, 0x18, 0x43] <+: s) ∧
    (startKind s = .undecided ↔
      s = [0x2A] ∨ s = [0x2A, 0x2A] ∨ s = [0x2A, 0x2A, 0x18] ∨ s = [0x2A, 0x18])

/-- R204, R206: trim splits the buffer at the earliest index where a frame starts or may still start, is idempotent,
and the garbage of a stream does not depend on how it was cut. -/
def Obligations.TrimLaws : Prop :=
  (∀ buf,
    (trim buf).1 ++ (trim buf).2 = buf ∧
    (∀ k < (trim buf).1.length, startKind (buf.drop k) = .noStart) ∧
    ((trim buf).2 = [] ∨ startKind (trim buf).2 ≠ .noStart) ∧
    trim (trim buf).2 = ([], (trim buf).2)) ∧
  (∀ a b, trim (a ++ b) =
    ((trim a).1 ++ (trim ((trim a).2 ++ b)).1, (trim ((trim a).2 ++ b)).2))

/-! ### Headline laws -/

/-- R220, hex: the bytes TX.HEX appends for a header of a supported type, pushed into an empty RXBUF, are parsed by
RX.HDR to that header, HFMT 1, and nothing is left. -/
def Obligations.HexHeaderRoundTrip : Prop :=
  ∀ s (sel : BitVec 2), sel ≠ 3 → s.hdr.b0.toNat ≤ 11 → s.params.wellFormed = true →
    ∃ frame,
      exec (.txHex sel) s = .next { s with txout := s.txout ++ frame, status := 0x00 } ∧
      exec .rxHdr (feed frame { s with rxbuf := [] }) =
        .next { s with rxbuf := [], rxh := s.hdr, hfmt := 1, status := 0x00 }

/-- R220, binary: the same of TX.BIN16 with HFMT 2 and of TX.BIN32 with HFMT 3, under every CFG and LASTCODE. -/
def Obligations.BinaryHeaderRoundTrip : Prop :=
  ∀ s, s.hdr.b0.toNat ≤ 11 → s.params.wellFormed = true →
    (∃ frame l,
      exec .txBin16 s = .next { s with txout := s.txout ++ frame, lastcode := l, status := 0x00 } ∧
      exec .rxHdr (feed frame { s with rxbuf := [] }) =
        .next { s with rxbuf := [], rxh := s.hdr, hfmt := 2, status := 0x00 }) ∧
    (∃ frame l,
      exec .txBin32 s = .next { s with txout := s.txout ++ frame, lastcode := l, status := 0x00 } ∧
      exec .rxHdr (feed frame { s with rxbuf := [] }) =
        .next { s with rxbuf := [], rxh := s.hdr, hfmt := 3, status := 0x00 })

/-- R248: the bytes TX.SUB16 or TX.SUB32 appends pass the filter of RX.PUSH whole, and the parser of the same width
takes exactly them off the front of whatever follows, with the payload in OBUF and the terminator in SUBT. -/
def Obligations.SubpacketRoundTrip : Prop :=
  ∀ s (sel : BitVec 2) (u : List Byte),
    (∃ frame l,
      exec (.txSub16 sel) s = .next { s with txout := s.txout ++ frame, lastcode := l, status := 0x00 } ∧
      (∀ b ∈ frame, isFlowControl b = false) ∧
      exec .rxSub16 { s with rxbuf := frame ++ u } =
        .next { s with rxbuf := u, obuf := s.ibuf, subt := 0x68 + sel.setWidth 8, status := 0x00 }) ∧
    (∃ frame l,
      exec (.txSub32 sel) s = .next { s with txout := s.txout ++ frame, lastcode := l, status := 0x00 } ∧
      (∀ b ∈ frame, isFlowControl b = false) ∧
      exec .rxSub32 { s with rxbuf := frame ++ u } =
        .next { s with rxbuf := u, obuf := s.ibuf, subt := 0x68 + sel.setWidth 8, status := 0x00 })

/-- R56, R58: INCOMPLETE changes nothing but STATUS, and any other outcome of a parser is what it would have been
had more bytes followed, which then stay behind the ones it leaves: arrival in pieces makes no difference. -/
def Obligations.ParsingIgnoresChunking : Prop :=
  ∀ i s t (u : List Byte),
    (i = .rxHdr ∨ i = .rxSub16 ∨ i = .rxSub32 ∨ i = .rxScan ∨ ∃ n, i = .rxSplice n) →
    exec i s = .next t →
    (t.status = 0x01 → t = { s with status := 0x01 }) ∧
    (t.status ≠ 0x01 →
      exec i { s with rxbuf := s.rxbuf ++ u } = .next { t with rxbuf := t.rxbuf ++ u })

/-- R96: each pseudo-instruction, run as the commands it expands to. -/
def Obligations.PseudoInstructionsRun : Prop :=
  (∀ s bytes, (∀ cap, s.params.ibufCap = some cap → bytes.length ≤ cap) →
    execAll (expand s (.ibLoad bytes)) s = .next { s with ibuf := bytes, status := 0x00 }) ∧
  (∀ s v, execAll (expand s (.argLoad v)) s = .next { s with arg := v, status := 0x00 }) ∧
  (∀ s t p0 p1 p2 p3, execAll (expand s (.hdrLoad t p0 p1 p2 p3)) s =
    .next { s with hdr := ⟨t, p0, p1, p2, p3⟩, status := 0x00 }) ∧
  (∀ s bytes, execAll (expand s (.rxFeed bytes)) s = .next (feed bytes s)) ∧
  (∀ s fed, execAll (expand s (.rxLoop fed)) s = .next (feed (s.txout.drop fed) s))
end

