-- ==== Sys2Proof/Laws/State.lean ====
section
/-! SUPPORT. One lemma per field per update of the state, true by rfl, so that no proof unfolds a record update.
`done`, `incomplete` and `raise` are spelled `finish`, and `consume` is spelled `setRxbuf`. -/

namespace Sys2Proof.Machine

variable (s : State)

@[simp] theorem State.done_eq : s.done = s.finish .ok := rfl
@[simp] theorem State.incomplete_eq : s.incomplete = s.finish .incomplete := rfl
@[simp] theorem State.raise_eq (e : StatusCode) : s.raise e = s.finish e := rfl
@[simp] theorem State.consume_eq (k : Nat) : s.consume k = s.setRxbuf (s.rxbuf.drop k) := rfl

@[simp] theorem State.setCfg_cfg (v : BitVec 2) : (s.setCfg v).cfg = v := rfl
@[simp] theorem State.setCfg_lastcode (v : BitVec 2) : (s.setCfg v).lastcode = s.lastcode := rfl
@[simp] theorem State.setCfg_hdr (v : BitVec 2) : (s.setCfg v).hdr = s.hdr := rfl
@[simp] theorem State.setCfg_arg (v : BitVec 2) : (s.setCfg v).arg = s.arg := rfl
@[simp] theorem State.setCfg_rxh (v : BitVec 2) : (s.setCfg v).rxh = s.rxh := rfl
@[simp] theorem State.setCfg_hfmt (v : BitVec 2) : (s.setCfg v).hfmt = s.hfmt := rfl
@[simp] theorem State.setCfg_subt (v : BitVec 2) : (s.setCfg v).subt = s.subt := rfl
@[simp] theorem State.setCfg_crcx (v : BitVec 2) : (s.setCfg v).crcx = s.crcx := rfl
@[simp] theorem State.setCfg_crcg (v : BitVec 2) : (s.setCfg v).crcg = s.crcg := rfl
@[simp] theorem State.setCfg_crck (v : BitVec 2) : (s.setCfg v).crck = s.crck := rfl
@[simp] theorem State.setCfg_status (v : BitVec 2) : (s.setCfg v).status = s.status := rfl
@[simp] theorem State.setCfg_ibuf (v : BitVec 2) : (s.setCfg v).ibuf = s.ibuf := rfl
@[simp] theorem State.setCfg_obuf (v : BitVec 2) : (s.setCfg v).obuf = s.obuf := rfl
@[simp] theorem State.setCfg_rxbuf (v : BitVec 2) : (s.setCfg v).rxbuf = s.rxbuf := rfl
@[simp] theorem State.setCfg_txout (v : BitVec 2) : (s.setCfg v).txout = s.txout := rfl
@[simp] theorem State.setCfg_params (v : BitVec 2) : (s.setCfg v).params = s.params := rfl
@[simp] theorem State.setCfg_pending (v : BitVec 2) : (s.setCfg v).pending = s.pending := rfl

@[simp] theorem State.setLastcode_cfg (v : Byte) : (s.setLastcode v).cfg = s.cfg := rfl
@[simp] theorem State.setLastcode_lastcode (v : Byte) : (s.setLastcode v).lastcode = v := rfl
@[simp] theorem State.setLastcode_hdr (v : Byte) : (s.setLastcode v).hdr = s.hdr := rfl
@[simp] theorem State.setLastcode_arg (v : Byte) : (s.setLastcode v).arg = s.arg := rfl
@[simp] theorem State.setLastcode_rxh (v : Byte) : (s.setLastcode v).rxh = s.rxh := rfl
@[simp] theorem State.setLastcode_hfmt (v : Byte) : (s.setLastcode v).hfmt = s.hfmt := rfl
@[simp] theorem State.setLastcode_subt (v : Byte) : (s.setLastcode v).subt = s.subt := rfl
@[simp] theorem State.setLastcode_crcx (v : Byte) : (s.setLastcode v).crcx = s.crcx := rfl
@[simp] theorem State.setLastcode_crcg (v : Byte) : (s.setLastcode v).crcg = s.crcg := rfl
@[simp] theorem State.setLastcode_crck (v : Byte) : (s.setLastcode v).crck = s.crck := rfl
@[simp] theorem State.setLastcode_status (v : Byte) : (s.setLastcode v).status = s.status := rfl
@[simp] theorem State.setLastcode_ibuf (v : Byte) : (s.setLastcode v).ibuf = s.ibuf := rfl
@[simp] theorem State.setLastcode_obuf (v : Byte) : (s.setLastcode v).obuf = s.obuf := rfl
@[simp] theorem State.setLastcode_rxbuf (v : Byte) : (s.setLastcode v).rxbuf = s.rxbuf := rfl
@[simp] theorem State.setLastcode_txout (v : Byte) : (s.setLastcode v).txout = s.txout := rfl
@[simp] theorem State.setLastcode_params (v : Byte) : (s.setLastcode v).params = s.params := rfl
@[simp] theorem State.setLastcode_pending (v : Byte) : (s.setLastcode v).pending = s.pending := rfl

@[simp] theorem State.setHdr_cfg (v : Header) : (s.setHdr v).cfg = s.cfg := rfl
@[simp] theorem State.setHdr_lastcode (v : Header) : (s.setHdr v).lastcode = s.lastcode := rfl
@[simp] theorem State.setHdr_hdr (v : Header) : (s.setHdr v).hdr = v := rfl
@[simp] theorem State.setHdr_arg (v : Header) : (s.setHdr v).arg = s.arg := rfl
@[simp] theorem State.setHdr_rxh (v : Header) : (s.setHdr v).rxh = s.rxh := rfl
@[simp] theorem State.setHdr_hfmt (v : Header) : (s.setHdr v).hfmt = s.hfmt := rfl
@[simp] theorem State.setHdr_subt (v : Header) : (s.setHdr v).subt = s.subt := rfl
@[simp] theorem State.setHdr_crcx (v : Header) : (s.setHdr v).crcx = s.crcx := rfl
@[simp] theorem State.setHdr_crcg (v : Header) : (s.setHdr v).crcg = s.crcg := rfl
@[simp] theorem State.setHdr_crck (v : Header) : (s.setHdr v).crck = s.crck := rfl
@[simp] theorem State.setHdr_status (v : Header) : (s.setHdr v).status = s.status := rfl
@[simp] theorem State.setHdr_ibuf (v : Header) : (s.setHdr v).ibuf = s.ibuf := rfl
@[simp] theorem State.setHdr_obuf (v : Header) : (s.setHdr v).obuf = s.obuf := rfl
@[simp] theorem State.setHdr_rxbuf (v : Header) : (s.setHdr v).rxbuf = s.rxbuf := rfl
@[simp] theorem State.setHdr_txout (v : Header) : (s.setHdr v).txout = s.txout := rfl
@[simp] theorem State.setHdr_params (v : Header) : (s.setHdr v).params = s.params := rfl
@[simp] theorem State.setHdr_pending (v : Header) : (s.setHdr v).pending = s.pending := rfl

@[simp] theorem State.setArg_cfg (v : BitVec 32) : (s.setArg v).cfg = s.cfg := rfl
@[simp] theorem State.setArg_lastcode (v : BitVec 32) : (s.setArg v).lastcode = s.lastcode := rfl
@[simp] theorem State.setArg_hdr (v : BitVec 32) : (s.setArg v).hdr = s.hdr := rfl
@[simp] theorem State.setArg_arg (v : BitVec 32) : (s.setArg v).arg = v := rfl
@[simp] theorem State.setArg_rxh (v : BitVec 32) : (s.setArg v).rxh = s.rxh := rfl
@[simp] theorem State.setArg_hfmt (v : BitVec 32) : (s.setArg v).hfmt = s.hfmt := rfl
@[simp] theorem State.setArg_subt (v : BitVec 32) : (s.setArg v).subt = s.subt := rfl
@[simp] theorem State.setArg_crcx (v : BitVec 32) : (s.setArg v).crcx = s.crcx := rfl
@[simp] theorem State.setArg_crcg (v : BitVec 32) : (s.setArg v).crcg = s.crcg := rfl
@[simp] theorem State.setArg_crck (v : BitVec 32) : (s.setArg v).crck = s.crck := rfl
@[simp] theorem State.setArg_status (v : BitVec 32) : (s.setArg v).status = s.status := rfl
@[simp] theorem State.setArg_ibuf (v : BitVec 32) : (s.setArg v).ibuf = s.ibuf := rfl
@[simp] theorem State.setArg_obuf (v : BitVec 32) : (s.setArg v).obuf = s.obuf := rfl
@[simp] theorem State.setArg_rxbuf (v : BitVec 32) : (s.setArg v).rxbuf = s.rxbuf := rfl
@[simp] theorem State.setArg_txout (v : BitVec 32) : (s.setArg v).txout = s.txout := rfl
@[simp] theorem State.setArg_params (v : BitVec 32) : (s.setArg v).params = s.params := rfl
@[simp] theorem State.setArg_pending (v : BitVec 32) : (s.setArg v).pending = s.pending := rfl

@[simp] theorem State.setParsedHeader_cfg (h : Header) (f : BitVec 2) : (s.setParsedHeader h f).cfg = s.cfg := rfl
@[simp] theorem State.setParsedHeader_lastcode (h : Header) (f : BitVec 2) : (s.setParsedHeader h f).lastcode = s.lastcode := rfl
@[simp] theorem State.setParsedHeader_hdr (h : Header) (f : BitVec 2) : (s.setParsedHeader h f).hdr = s.hdr := rfl
@[simp] theorem State.setParsedHeader_arg (h : Header) (f : BitVec 2) : (s.setParsedHeader h f).arg = s.arg := rfl
@[simp] theorem State.setParsedHeader_rxh (h : Header) (f : BitVec 2) : (s.setParsedHeader h f).rxh = h := rfl
@[simp] theorem State.setParsedHeader_hfmt (h : Header) (f : BitVec 2) : (s.setParsedHeader h f).hfmt = f := rfl
@[simp] theorem State.setParsedHeader_subt (h : Header) (f : BitVec 2) : (s.setParsedHeader h f).subt = s.subt := rfl
@[simp] theorem State.setParsedHeader_crcx (h : Header) (f : BitVec 2) : (s.setParsedHeader h f).crcx = s.crcx := rfl
@[simp] theorem State.setParsedHeader_crcg (h : Header) (f : BitVec 2) : (s.setParsedHeader h f).crcg = s.crcg := rfl
@[simp] theorem State.setParsedHeader_crck (h : Header) (f : BitVec 2) : (s.setParsedHeader h f).crck = s.crck := rfl
@[simp] theorem State.setParsedHeader_status (h : Header) (f : BitVec 2) : (s.setParsedHeader h f).status = s.status := rfl
@[simp] theorem State.setParsedHeader_ibuf (h : Header) (f : BitVec 2) : (s.setParsedHeader h f).ibuf = s.ibuf := rfl
@[simp] theorem State.setParsedHeader_obuf (h : Header) (f : BitVec 2) : (s.setParsedHeader h f).obuf = s.obuf := rfl
@[simp] theorem State.setParsedHeader_rxbuf (h : Header) (f : BitVec 2) : (s.setParsedHeader h f).rxbuf = s.rxbuf := rfl
@[simp] theorem State.setParsedHeader_txout (h : Header) (f : BitVec 2) : (s.setParsedHeader h f).txout = s.txout := rfl
@[simp] theorem State.setParsedHeader_params (h : Header) (f : BitVec 2) : (s.setParsedHeader h f).params = s.params := rfl
@[simp] theorem State.setParsedHeader_pending (h : Header) (f : BitVec 2) : (s.setParsedHeader h f).pending = s.pending := rfl

@[simp] theorem State.setSubt_cfg (v : Byte) : (s.setSubt v).cfg = s.cfg := rfl
@[simp] theorem State.setSubt_lastcode (v : Byte) : (s.setSubt v).lastcode = s.lastcode := rfl
@[simp] theorem State.setSubt_hdr (v : Byte) : (s.setSubt v).hdr = s.hdr := rfl
@[simp] theorem State.setSubt_arg (v : Byte) : (s.setSubt v).arg = s.arg := rfl
@[simp] theorem State.setSubt_rxh (v : Byte) : (s.setSubt v).rxh = s.rxh := rfl
@[simp] theorem State.setSubt_hfmt (v : Byte) : (s.setSubt v).hfmt = s.hfmt := rfl
@[simp] theorem State.setSubt_subt (v : Byte) : (s.setSubt v).subt = v := rfl
@[simp] theorem State.setSubt_crcx (v : Byte) : (s.setSubt v).crcx = s.crcx := rfl
@[simp] theorem State.setSubt_crcg (v : Byte) : (s.setSubt v).crcg = s.crcg := rfl
@[simp] theorem State.setSubt_crck (v : Byte) : (s.setSubt v).crck = s.crck := rfl
@[simp] theorem State.setSubt_status (v : Byte) : (s.setSubt v).status = s.status := rfl
@[simp] theorem State.setSubt_ibuf (v : Byte) : (s.setSubt v).ibuf = s.ibuf := rfl
@[simp] theorem State.setSubt_obuf (v : Byte) : (s.setSubt v).obuf = s.obuf := rfl
@[simp] theorem State.setSubt_rxbuf (v : Byte) : (s.setSubt v).rxbuf = s.rxbuf := rfl
@[simp] theorem State.setSubt_txout (v : Byte) : (s.setSubt v).txout = s.txout := rfl
@[simp] theorem State.setSubt_params (v : Byte) : (s.setSubt v).params = s.params := rfl
@[simp] theorem State.setSubt_pending (v : Byte) : (s.setSubt v).pending = s.pending := rfl

@[simp] theorem State.setIbuf_cfg (v : List Byte) : (s.setIbuf v).cfg = s.cfg := rfl
@[simp] theorem State.setIbuf_lastcode (v : List Byte) : (s.setIbuf v).lastcode = s.lastcode := rfl
@[simp] theorem State.setIbuf_hdr (v : List Byte) : (s.setIbuf v).hdr = s.hdr := rfl
@[simp] theorem State.setIbuf_arg (v : List Byte) : (s.setIbuf v).arg = s.arg := rfl
@[simp] theorem State.setIbuf_rxh (v : List Byte) : (s.setIbuf v).rxh = s.rxh := rfl
@[simp] theorem State.setIbuf_hfmt (v : List Byte) : (s.setIbuf v).hfmt = s.hfmt := rfl
@[simp] theorem State.setIbuf_subt (v : List Byte) : (s.setIbuf v).subt = s.subt := rfl
@[simp] theorem State.setIbuf_crcx (v : List Byte) : (s.setIbuf v).crcx = s.crcx := rfl
@[simp] theorem State.setIbuf_crcg (v : List Byte) : (s.setIbuf v).crcg = s.crcg := rfl
@[simp] theorem State.setIbuf_crck (v : List Byte) : (s.setIbuf v).crck = s.crck := rfl
@[simp] theorem State.setIbuf_status (v : List Byte) : (s.setIbuf v).status = s.status := rfl
@[simp] theorem State.setIbuf_ibuf (v : List Byte) : (s.setIbuf v).ibuf = v := rfl
@[simp] theorem State.setIbuf_obuf (v : List Byte) : (s.setIbuf v).obuf = s.obuf := rfl
@[simp] theorem State.setIbuf_rxbuf (v : List Byte) : (s.setIbuf v).rxbuf = s.rxbuf := rfl
@[simp] theorem State.setIbuf_txout (v : List Byte) : (s.setIbuf v).txout = s.txout := rfl
@[simp] theorem State.setIbuf_params (v : List Byte) : (s.setIbuf v).params = s.params := rfl
@[simp] theorem State.setIbuf_pending (v : List Byte) : (s.setIbuf v).pending = s.pending := rfl

@[simp] theorem State.setObuf_cfg (v : List Byte) : (s.setObuf v).cfg = s.cfg := rfl
@[simp] theorem State.setObuf_lastcode (v : List Byte) : (s.setObuf v).lastcode = s.lastcode := rfl
@[simp] theorem State.setObuf_hdr (v : List Byte) : (s.setObuf v).hdr = s.hdr := rfl
@[simp] theorem State.setObuf_arg (v : List Byte) : (s.setObuf v).arg = s.arg := rfl
@[simp] theorem State.setObuf_rxh (v : List Byte) : (s.setObuf v).rxh = s.rxh := rfl
@[simp] theorem State.setObuf_hfmt (v : List Byte) : (s.setObuf v).hfmt = s.hfmt := rfl
@[simp] theorem State.setObuf_subt (v : List Byte) : (s.setObuf v).subt = s.subt := rfl
@[simp] theorem State.setObuf_crcx (v : List Byte) : (s.setObuf v).crcx = s.crcx := rfl
@[simp] theorem State.setObuf_crcg (v : List Byte) : (s.setObuf v).crcg = s.crcg := rfl
@[simp] theorem State.setObuf_crck (v : List Byte) : (s.setObuf v).crck = s.crck := rfl
@[simp] theorem State.setObuf_status (v : List Byte) : (s.setObuf v).status = s.status := rfl
@[simp] theorem State.setObuf_ibuf (v : List Byte) : (s.setObuf v).ibuf = s.ibuf := rfl
@[simp] theorem State.setObuf_obuf (v : List Byte) : (s.setObuf v).obuf = v := rfl
@[simp] theorem State.setObuf_rxbuf (v : List Byte) : (s.setObuf v).rxbuf = s.rxbuf := rfl
@[simp] theorem State.setObuf_txout (v : List Byte) : (s.setObuf v).txout = s.txout := rfl
@[simp] theorem State.setObuf_params (v : List Byte) : (s.setObuf v).params = s.params := rfl
@[simp] theorem State.setObuf_pending (v : List Byte) : (s.setObuf v).pending = s.pending := rfl

@[simp] theorem State.setRxbuf_cfg (v : List Byte) : (s.setRxbuf v).cfg = s.cfg := rfl
@[simp] theorem State.setRxbuf_lastcode (v : List Byte) : (s.setRxbuf v).lastcode = s.lastcode := rfl
@[simp] theorem State.setRxbuf_hdr (v : List Byte) : (s.setRxbuf v).hdr = s.hdr := rfl
@[simp] theorem State.setRxbuf_arg (v : List Byte) : (s.setRxbuf v).arg = s.arg := rfl
@[simp] theorem State.setRxbuf_rxh (v : List Byte) : (s.setRxbuf v).rxh = s.rxh := rfl
@[simp] theorem State.setRxbuf_hfmt (v : List Byte) : (s.setRxbuf v).hfmt = s.hfmt := rfl
@[simp] theorem State.setRxbuf_subt (v : List Byte) : (s.setRxbuf v).subt = s.subt := rfl
@[simp] theorem State.setRxbuf_crcx (v : List Byte) : (s.setRxbuf v).crcx = s.crcx := rfl
@[simp] theorem State.setRxbuf_crcg (v : List Byte) : (s.setRxbuf v).crcg = s.crcg := rfl
@[simp] theorem State.setRxbuf_crck (v : List Byte) : (s.setRxbuf v).crck = s.crck := rfl
@[simp] theorem State.setRxbuf_status (v : List Byte) : (s.setRxbuf v).status = s.status := rfl
@[simp] theorem State.setRxbuf_ibuf (v : List Byte) : (s.setRxbuf v).ibuf = s.ibuf := rfl
@[simp] theorem State.setRxbuf_obuf (v : List Byte) : (s.setRxbuf v).obuf = s.obuf := rfl
@[simp] theorem State.setRxbuf_rxbuf (v : List Byte) : (s.setRxbuf v).rxbuf = v := rfl
@[simp] theorem State.setRxbuf_txout (v : List Byte) : (s.setRxbuf v).txout = s.txout := rfl
@[simp] theorem State.setRxbuf_params (v : List Byte) : (s.setRxbuf v).params = s.params := rfl
@[simp] theorem State.setRxbuf_pending (v : List Byte) : (s.setRxbuf v).pending = s.pending := rfl

@[simp] theorem State.transmit_cfg (v : List Byte) : (s.transmit v).cfg = s.cfg := rfl
@[simp] theorem State.transmit_lastcode (v : List Byte) : (s.transmit v).lastcode = s.lastcode := rfl
@[simp] theorem State.transmit_hdr (v : List Byte) : (s.transmit v).hdr = s.hdr := rfl
@[simp] theorem State.transmit_arg (v : List Byte) : (s.transmit v).arg = s.arg := rfl
@[simp] theorem State.transmit_rxh (v : List Byte) : (s.transmit v).rxh = s.rxh := rfl
@[simp] theorem State.transmit_hfmt (v : List Byte) : (s.transmit v).hfmt = s.hfmt := rfl
@[simp] theorem State.transmit_subt (v : List Byte) : (s.transmit v).subt = s.subt := rfl
@[simp] theorem State.transmit_crcx (v : List Byte) : (s.transmit v).crcx = s.crcx := rfl
@[simp] theorem State.transmit_crcg (v : List Byte) : (s.transmit v).crcg = s.crcg := rfl
@[simp] theorem State.transmit_crck (v : List Byte) : (s.transmit v).crck = s.crck := rfl
@[simp] theorem State.transmit_status (v : List Byte) : (s.transmit v).status = s.status := rfl
@[simp] theorem State.transmit_ibuf (v : List Byte) : (s.transmit v).ibuf = s.ibuf := rfl
@[simp] theorem State.transmit_obuf (v : List Byte) : (s.transmit v).obuf = s.obuf := rfl
@[simp] theorem State.transmit_rxbuf (v : List Byte) : (s.transmit v).rxbuf = s.rxbuf := rfl
@[simp] theorem State.transmit_txout (v : List Byte) : (s.transmit v).txout = s.txout ++ v := rfl
@[simp] theorem State.transmit_params (v : List Byte) : (s.transmit v).params = s.params := rfl
@[simp] theorem State.transmit_pending (v : List Byte) : (s.transmit v).pending = s.pending := rfl

@[simp] theorem State.finish_cfg (c : StatusCode) : (s.finish c).cfg = s.cfg := rfl
@[simp] theorem State.finish_lastcode (c : StatusCode) : (s.finish c).lastcode = s.lastcode := rfl
@[simp] theorem State.finish_hdr (c : StatusCode) : (s.finish c).hdr = s.hdr := rfl
@[simp] theorem State.finish_arg (c : StatusCode) : (s.finish c).arg = s.arg := rfl
@[simp] theorem State.finish_rxh (c : StatusCode) : (s.finish c).rxh = s.rxh := rfl
@[simp] theorem State.finish_hfmt (c : StatusCode) : (s.finish c).hfmt = s.hfmt := rfl
@[simp] theorem State.finish_subt (c : StatusCode) : (s.finish c).subt = s.subt := rfl
@[simp] theorem State.finish_crcx (c : StatusCode) : (s.finish c).crcx = s.crcx := rfl
@[simp] theorem State.finish_crcg (c : StatusCode) : (s.finish c).crcg = s.crcg := rfl
@[simp] theorem State.finish_crck (c : StatusCode) : (s.finish c).crck = s.crck := rfl
@[simp] theorem State.finish_status (c : StatusCode) : (s.finish c).status = c.code := rfl
@[simp] theorem State.finish_ibuf (c : StatusCode) : (s.finish c).ibuf = s.ibuf := rfl
@[simp] theorem State.finish_obuf (c : StatusCode) : (s.finish c).obuf = s.obuf := rfl
@[simp] theorem State.finish_rxbuf (c : StatusCode) : (s.finish c).rxbuf = s.rxbuf := rfl
@[simp] theorem State.finish_txout (c : StatusCode) : (s.finish c).txout = s.txout := rfl
@[simp] theorem State.finish_params (c : StatusCode) : (s.finish c).params = s.params := rfl
@[simp] theorem State.finish_pending (c : StatusCode) : (s.finish c).pending = s.pending := rfl

@[simp] theorem State.raiseCrc_cfg (w : CrcWidth) (x g : List Byte) : (s.raiseCrc w x g).cfg = s.cfg := rfl
@[simp] theorem State.raiseCrc_lastcode (w : CrcWidth) (x g : List Byte) : (s.raiseCrc w x g).lastcode = s.lastcode := rfl
@[simp] theorem State.raiseCrc_hdr (w : CrcWidth) (x g : List Byte) : (s.raiseCrc w x g).hdr = s.hdr := rfl
@[simp] theorem State.raiseCrc_arg (w : CrcWidth) (x g : List Byte) : (s.raiseCrc w x g).arg = s.arg := rfl
@[simp] theorem State.raiseCrc_rxh (w : CrcWidth) (x g : List Byte) : (s.raiseCrc w x g).rxh = s.rxh := rfl
@[simp] theorem State.raiseCrc_hfmt (w : CrcWidth) (x g : List Byte) : (s.raiseCrc w x g).hfmt = s.hfmt := rfl
@[simp] theorem State.raiseCrc_subt (w : CrcWidth) (x g : List Byte) : (s.raiseCrc w x g).subt = s.subt := rfl
@[simp] theorem State.raiseCrc_crcx (w : CrcWidth) (x g : List Byte) : (s.raiseCrc w x g).crcx = crcRegister x := rfl
@[simp] theorem State.raiseCrc_crcg (w : CrcWidth) (x g : List Byte) : (s.raiseCrc w x g).crcg = crcRegister g := rfl
@[simp] theorem State.raiseCrc_crck (w : CrcWidth) (x g : List Byte) : (s.raiseCrc w x g).crck = w.crck := rfl
@[simp] theorem State.raiseCrc_status (w : CrcWidth) (x g : List Byte) : (s.raiseCrc w x g).status = StatusCode.eCrc.code := rfl
@[simp] theorem State.raiseCrc_ibuf (w : CrcWidth) (x g : List Byte) : (s.raiseCrc w x g).ibuf = s.ibuf := rfl
@[simp] theorem State.raiseCrc_obuf (w : CrcWidth) (x g : List Byte) : (s.raiseCrc w x g).obuf = s.obuf := rfl
@[simp] theorem State.raiseCrc_rxbuf (w : CrcWidth) (x g : List Byte) : (s.raiseCrc w x g).rxbuf = s.rxbuf := rfl
@[simp] theorem State.raiseCrc_txout (w : CrcWidth) (x g : List Byte) : (s.raiseCrc w x g).txout = s.txout := rfl
@[simp] theorem State.raiseCrc_params (w : CrcWidth) (x g : List Byte) : (s.raiseCrc w x g).params = s.params := rfl
@[simp] theorem State.raiseCrc_pending (w : CrcWidth) (x g : List Byte) : (s.raiseCrc w x g).pending = s.pending := rfl

@[simp] theorem State.withPending_cfg (v : List HostAction) : (s.withPending v).cfg = s.cfg := rfl
@[simp] theorem State.withPending_lastcode (v : List HostAction) : (s.withPending v).lastcode = s.lastcode := rfl
@[simp] theorem State.withPending_hdr (v : List HostAction) : (s.withPending v).hdr = s.hdr := rfl
@[simp] theorem State.withPending_arg (v : List HostAction) : (s.withPending v).arg = s.arg := rfl
@[simp] theorem State.withPending_rxh (v : List HostAction) : (s.withPending v).rxh = s.rxh := rfl
@[simp] theorem State.withPending_hfmt (v : List HostAction) : (s.withPending v).hfmt = s.hfmt := rfl
@[simp] theorem State.withPending_subt (v : List HostAction) : (s.withPending v).subt = s.subt := rfl
@[simp] theorem State.withPending_crcx (v : List HostAction) : (s.withPending v).crcx = s.crcx := rfl
@[simp] theorem State.withPending_crcg (v : List HostAction) : (s.withPending v).crcg = s.crcg := rfl
@[simp] theorem State.withPending_crck (v : List HostAction) : (s.withPending v).crck = s.crck := rfl
@[simp] theorem State.withPending_status (v : List HostAction) : (s.withPending v).status = s.status := rfl
@[simp] theorem State.withPending_ibuf (v : List HostAction) : (s.withPending v).ibuf = s.ibuf := rfl
@[simp] theorem State.withPending_obuf (v : List HostAction) : (s.withPending v).obuf = s.obuf := rfl
@[simp] theorem State.withPending_rxbuf (v : List HostAction) : (s.withPending v).rxbuf = s.rxbuf := rfl
@[simp] theorem State.withPending_txout (v : List HostAction) : (s.withPending v).txout = s.txout := rfl
@[simp] theorem State.withPending_params (v : List HostAction) : (s.withPending v).params = s.params := rfl
@[simp] theorem State.withPending_pending (v : List HostAction) : (s.withPending v).pending = v := rfl

@[simp] theorem State.resetBlock_cfg : s.resetBlock.cfg = State.reset.cfg := rfl
@[simp] theorem State.resetBlock_lastcode : s.resetBlock.lastcode = State.reset.lastcode := rfl
@[simp] theorem State.resetBlock_hdr : s.resetBlock.hdr = State.reset.hdr := rfl
@[simp] theorem State.resetBlock_arg : s.resetBlock.arg = State.reset.arg := rfl
@[simp] theorem State.resetBlock_rxh : s.resetBlock.rxh = State.reset.rxh := rfl
@[simp] theorem State.resetBlock_hfmt : s.resetBlock.hfmt = State.reset.hfmt := rfl
@[simp] theorem State.resetBlock_subt : s.resetBlock.subt = State.reset.subt := rfl
@[simp] theorem State.resetBlock_crcx : s.resetBlock.crcx = State.reset.crcx := rfl
@[simp] theorem State.resetBlock_crcg : s.resetBlock.crcg = State.reset.crcg := rfl
@[simp] theorem State.resetBlock_crck : s.resetBlock.crck = State.reset.crck := rfl
@[simp] theorem State.resetBlock_status : s.resetBlock.status = State.reset.status := rfl
@[simp] theorem State.resetBlock_ibuf : s.resetBlock.ibuf = State.reset.ibuf := rfl
@[simp] theorem State.resetBlock_obuf : s.resetBlock.obuf = State.reset.obuf := rfl
@[simp] theorem State.resetBlock_rxbuf : s.resetBlock.rxbuf = State.reset.rxbuf := rfl
@[simp] theorem State.resetBlock_txout : s.resetBlock.txout = State.reset.txout := rfl
@[simp] theorem State.resetBlock_params : s.resetBlock.params = s.params := rfl
@[simp] theorem State.resetBlock_pending : s.resetBlock.pending = s.pending := rfl

/-! ### The block inside the state -/

@[simp] theorem State.resetBlock_toBlock : s.resetBlock.toBlock = Block.reset := rfl
@[simp] theorem State.reset_toBlock : State.reset.toBlock = Block.reset := rfl
@[simp] theorem State.withPending_toBlock (v : List HostAction) : (s.withPending v).toBlock = s.toBlock := rfl

/-- Two states are equal when their blocks, parameters and inputs are. -/
theorem State.eq_of_parts {s t : State} (hb : s.toBlock = t.toBlock) (hp : s.params = t.params)
    (hi : s.pending = t.pending) : s = t := by
  cases s; cases t; simp_all

end Sys2Proof.Machine
end

