-- ==== Sys2Proof/Laws/Block.lean ====
section
/-! SUPPORT. The small lemmas of the block inside the state: taking it out of an outcome and putting it back. -/

namespace Sys2Proof.Machine

@[simp] theorem blockOutcome_next (t : State) : blockOutcome (.next t) = .next t.toBlock := rfl

@[simp] theorem State.withBlock_next (s : State) (b : Block) : s.withBlock (.next b) = .next { s with toBlock := b } := rfl

/-- A next state with the parameters and inputs of `s` is `s` with that state's block. -/
theorem State.withBlock_blockOutcome {s t : State} (hp : t.params = s.params) (hi : t.pending = s.pending) :
    s.withBlock (blockOutcome (.next t)) = .next t := by
  simp only [blockOutcome_next, State.withBlock_next, Host.Outcome.next.injEq]
  exact State.eq_of_parts rfl hp.symm hi.symm

end Sys2Proof.Machine
end

