-- ==== Sys2Proof/Laws/Codec.lean ====
section
/-! SUPPORT. The pure functions' own small lemmas: lengths, and one unfolding per shape of input. -/

namespace Sys2Proof.Machine

/-! ### Bytes of integers -/

@[simp] theorem bytes16be_length (v : BitVec 16) : (bytes16be v).length = 2 := rfl
@[simp] theorem packU32le_length (v : BitVec 32) : (packU32le v).length = 4 := rfl

/-- `crc16(s) = pack_u16_be(crc16v(s))` as R144 prints it. -/
theorem packU16be_crc16v (s : List Byte) : packU16be (crc16v s).toNat = some (crc16 s) := by
  have h : ¬ 0xFFFF < (crc16v s).toNat := by have := (crc16v s).isLt; omega
  simp only [packU16be, h, if_false, crc16, bytes16be, Option.some.injEq, List.cons.injEq, and_true]
  constructor <;> apply BitVec.eq_of_toNat_eq <;> simp [BitVec.extractLsb'_toNat, Nat.shiftRight_eq_div_pow]

/-! ### Hex -/

@[simp] theorem hexEncode_nil : hexEncode [] = [] := rfl

@[simp] theorem hexEncode_cons (b : Byte) (s : List Byte) :
    hexEncode (b :: s) = hexDigit (b.extractLsb' 4 4) :: hexDigit (b.extractLsb' 0 4) :: hexEncode s := rfl

@[simp] theorem hexEncode_length (s : List Byte) : (hexEncode s).length = 2 * s.length := by
  induction s with
  | nil => rfl
  | cons b s ih => simp [ih]; omega

theorem hexEncode_append (x y : List Byte) : hexEncode (x ++ y) = hexEncode x ++ hexEncode y := by
  induction x with
  | nil => rfl
  | cons b x ih => simp [ih]

/-- A digit the encoder writes has its value. -/
theorem hexValue_hexDigit : ∀ n : BitVec 4, hexValue (hexDigit n) = some n.toNat := by decide +kernel

/-- A digit the encoder writes is neither a flow-control byte nor a line end. -/
theorem hexDigit_plain : ∀ n : BitVec 4, isFlowControl (hexDigit n) = false ∧ isLf (hexDigit n) = false := by
  decide +kernel

/-! ### Escape -/

/-- A byte outside the two control ranges is never escaped (R163, line 1). -/
theorem escClass_of_printable {b : Byte} (h : b &&& 0x60 ≠ 0) (e t : Bool) : escClass b e t = .never := by
  unfold escClass; rw [if_pos h]

@[simp] theorem zencode_nil (e t : Bool) (last : Byte) : zencode e t last [] = ([], last) := rfl

theorem zencode_cons (e t : Bool) (last c : Byte) (s : List Byte) :
    zencode e t last (c :: s) =
      (encodeByte e t last c ++ (zencode e t c s).1, (zencode e t c s).2) := rfl

/-- The encoder on a concatenation: the context runs on (R233). -/
theorem zencode_append (e t : Bool) (last : Byte) (x y : List Byte) :
    zencode e t last (x ++ y) =
      ((zencode e t last x).1 ++ (zencode e t (zencode e t last x).2 y).1,
       (zencode e t (zencode e t last x).2 y).2) := by
  induction x generalizing last with
  | nil => rfl
  | cons c x ih => simp [zencode_cons, ih]

/-- LASTCODE after an encoding is the last source byte, or what it was (R40). -/
theorem zencode_last (e t : Bool) (last : Byte) (s : List Byte) :
    (zencode e t last s).2 = s.getLastD last := by
  induction s generalizing last with
  | nil => rfl
  | cons c s ih => rw [zencode_cons]; simp only [ih, List.getLastD_cons]

@[simp] theorem zdecode_nil : zdecode [] = some [] := rfl

@[simp] theorem zdecode_pair (f : Byte) (raw : List Byte) :
    zdecode (zdle :: f :: raw) = (zdecode raw).map (unescape f :: ·) := by simp [zdecode]

theorem zdecode_literal {b : Byte} (h : b ≠ zdle) (raw : List Byte) :
    zdecode (b :: raw) = (zdecode raw).map (b :: ·) := by
  cases raw <;> simp [zdecode, h]

@[simp] theorem splice_zero (s : List Byte) : splice 0 s = some ([], 0) := by cases s <;> rfl

@[simp] theorem splice_nil (n : Nat) : splice (n + 1) [] = none := rfl

@[simp] theorem splice_lone (n : Nat) : splice (n + 1) [zdle] = none := by simp [splice]

@[simp] theorem splice_pair (n : Nat) (f : Byte) (s : List Byte) :
    splice (n + 1) (zdle :: f :: s) = (splice n s).map fun r => (unescape f :: r.1, r.2 + 2) := by
  simp [splice]

theorem splice_literal {b : Byte} (h : b ≠ zdle) (n : Nat) (s : List Byte) :
    splice (n + 1) (b :: s) = (splice n s).map fun r => (b :: r.1, r.2 + 1) := by
  simp [splice, h]

/-- What a splice gives has the length asked for. -/
theorem splice_length {n : Nat} {s out : List Byte} {i : Nat} (h : splice n s = some (out, i)) :
    out.length = n := by
  induction n generalizing s out i with
  | zero => simp_all
  | succ n ih =>
    cases s with
    | nil => simp at h
    | cons b s =>
      by_cases hb : b = zdle
      · subst hb
        cases s with
        | nil => simp at h
        | cons f s =>
          rw [splice_pair] at h
          obtain ⟨⟨o, j⟩, h1, h2⟩ := Option.map_eq_some_iff.mp h
          cases h2
          simp [ih h1]
      · rw [splice_literal hb] at h
        obtain ⟨⟨o, j⟩, h1, h2⟩ := Option.map_eq_some_iff.mp h
        cases h2
        simp [ih h1]

/-! ### Scans -/

@[simp] theorem scanTerm_nil : scanTerm [] = none := rfl
@[simp] theorem scanTerm_one (b : Byte) : scanTerm [b] = none := rfl

theorem scanTerm_cons_cons (z t : Byte) (s : List Byte) :
    scanTerm (z :: t :: s) =
      if z = zdle ∧ isTerminator t then some 0 else (scanTerm (t :: s)).map (· + 1) := rfl

@[simp] theorem trim_nil : trim [] = ([], []) := rfl

theorem trim_cons (b : Byte) (s : List Byte) :
    trim (b :: s) =
      if startKind (b :: s) = .noStart then (b :: (trim s).1, (trim s).2) else ([], b :: s) := rfl

/-- The four terminator bytes (R81). -/
theorem isTerminator_iff : ∀ t : Byte, isTerminator t = true ↔ ∃ k : BitVec 2, t = terminatorByte k := by
  decide +kernel

end Sys2Proof.Machine
end

