-- ==== Sys2Proof/Laws/Ops.lean ====
section
/-! SUPPORT. For each shared operation, once, everything it can do: what proofs cite instead of unfolding it. -/

namespace Sys2Proof.Machine

/-! ### Arrival of bytes -/

/-- RX.PUSH drops, refuses or appends, in that order of test. -/
theorem pushReceived_cases (b : Byte) (s : State) :
    (isFlowControl b = true ∧ pushReceived b s = s.finish .ok) ∨
    (isFlowControl b = false ∧ s.params.rxbufCap = some s.rxbuf.length ∧
      pushReceived b s = s.finish .eOverflow) ∨
    (isFlowControl b = false ∧ s.params.rxbufCap ≠ some s.rxbuf.length ∧
      pushReceived b s = (s.setRxbuf (s.rxbuf ++ [b])).finish .ok) := by
  unfold pushReceived isFull
  by_cases h : isFlowControl b = true <;>
    by_cases h' : s.params.rxbufCap = some s.rxbuf.length <;> simp_all

@[simp] theorem feed_nil (s : State) : feed [] s = s := rfl

@[simp] theorem feed_cons (b : Byte) (bytes : List Byte) (s : State) :
    feed (b :: bytes) s = feed bytes (pushReceived b s) := rfl

theorem feed_append (x y : List Byte) (s : State) : feed (x ++ y) s = feed y (feed x s) := by
  simp [feed, List.foldl_append]

/-- A feed touches RXBUF and STATUS only. -/
theorem feed_frame (bytes : List Byte) (s : State) :
    ∃ r st, feed bytes s = { s with rxbuf := r, status := st } := by
  induction bytes generalizing s with
  | nil => exact ⟨s.rxbuf, s.status, rfl⟩
  | cons b bytes ih =>
    rw [feed_cons]
    rcases pushReceived_cases b s with ⟨_, h⟩ | ⟨_, _, h⟩ | ⟨_, _, h⟩ <;> rw [h]
    · exact ih (s.finish .ok)
    · exact ih (s.finish .eOverflow)
    · exact ih ((s.setRxbuf (s.rxbuf ++ [b])).finish .ok)

/-- With room for all of them, a feed appends the bytes that are no flow-control bytes and ends in OK. -/
theorem feed_with_room (bytes : List Byte) (s : State) (hne : bytes ≠ [])
    (hroom : ∀ cap, s.params.rxbufCap = some cap → s.rxbuf.length + bytes.length ≤ cap) :
    feed bytes s = (s.setRxbuf (s.rxbuf ++ bytes.filter (fun b => !isFlowControl b))).finish .ok := by
  induction bytes generalizing s with
  | nil => exact absurd rfl hne
  | cons b bytes ih =>
    have key : ∀ t : State, pushReceived b s = t.finish .ok → t.params = s.params →
        t.rxbuf.length ≤ s.rxbuf.length + 1 →
        feed (b :: bytes) s =
          (t.setRxbuf (t.rxbuf ++ bytes.filter (fun b => !isFlowControl b))).finish .ok := by
      intro t ht hp hl
      rw [feed_cons, ht]
      by_cases hb : bytes = []
      · subst hb; simp [State.setRxbuf, State.finish]
      · rw [ih (t.finish .ok) hb]
        · rfl
        · intro cap hc
          have := hroom cap (by simpa [hp] using hc)
          simp only [List.length_cons, State.finish_rxbuf] at *
          omega
    rcases pushReceived_cases b s with ⟨hf, h⟩ | ⟨hf, hc, h⟩ | ⟨hf, _, h⟩
    · rw [key s h rfl (by omega)]; simp [hf]
    · have := hroom _ hc; simp at this
    · rw [key (s.setRxbuf (s.rxbuf ++ [b])) h rfl (by simp)]
      simp [hf, State.setRxbuf]

/-! ### CRC checks -/

@[simp] theorem crcOf_length (w : CrcWidth) (data : List Byte) : (crcOf w data).length = w.bytes := by
  cases w <;> rfl

theorem verify_good_iff (w : CrcWidth) (data got : List Byte) :
    verify w data got = .good ↔ crcOf w data = got := by
  unfold verify; split <;> simp_all

theorem verify_cases (w : CrcWidth) (data got : List Byte) :
    (crcOf w data = got ∧ verify w data got = .good) ∨
    (crcOf w data ≠ got ∧ verify w data got = .mismatch (crcOf w data) got) := by
  unfold verify; split <;> simp_all

/-- The operand of VFY16 and VFY32, from its two parts. -/
theorem splitTail_append (n : Nat) (data got : List Byte) (h : got.length = n) :
    splitTail n (data ++ got) = some (data, got) := by
  subst h; simp [splitTail]

theorem splitTail_short (n : Nat) (ibuf : List Byte) (h : ibuf.length < n) :
    splitTail n ibuf = none := by simp [splitTail, h]

/-- What a split gives back: the whole operand, and a tail of the width asked for. -/
theorem splitTail_some {n : Nat} {ibuf data got : List Byte} (h : splitTail n ibuf = some (data, got)) :
    ibuf = data ++ got ∧ got.length = n := by
  unfold splitTail at h
  split at h
  · cases h
  · simp only [Option.some.injEq, Prod.mk.injEq] at h
    obtain ⟨rfl, rfl⟩ := h
    refine ⟨(List.take_append_drop _ _).symm, ?_⟩
    simp; omega

/-- VFY16 and VFY32: too short, good, or a mismatch. -/
theorem verifyTail_cases (w : CrcWidth) (s : State) :
    (s.ibuf.length < w.bytes ∧ verifyTail w s = .next (s.finish .eLen)) ∨
    ∃ data got, s.ibuf = data ++ got ∧ got.length = w.bytes ∧
      ((crcOf w data = got ∧ verifyTail w s = .next (s.finish .ok)) ∨
       (crcOf w data ≠ got ∧ verifyTail w s = .next (s.raiseCrc w (crcOf w data) got))) := by
  unfold verifyTail
  cases h : splitTail w.bytes s.ibuf with
  | none =>
    left
    unfold splitTail at h
    split at h <;> simp_all
  | some r =>
    obtain ⟨data, got⟩ := r
    right
    obtain ⟨h1, h2⟩ := splitTail_some h
    refine ⟨data, got, h1, h2, ?_⟩
    rcases verify_cases w data got with ⟨hc, hv⟩ | ⟨hc, hv⟩ <;> simp [hv, hc]

/-! ### Headers -/

/-- A delimited header: CRC, then type (R217). -/
theorem acceptHeader_cases (k : StartKind) (w : CrcWidth) (l : List Byte) (s : State) :
    (crcOf w (l.take 5) ≠ l.drop 5 ∧
      acceptHeader k w l s = .next (s.raiseCrc w (crcOf w (l.take 5)) (l.drop 5))) ∨
    (crcOf w (l.take 5) = l.drop 5 ∧ supportedType (headerOf l).b0 = false ∧
      acceptHeader k w l s = .next (s.finish .eUnsupported)) ∨
    (crcOf w (l.take 5) = l.drop 5 ∧ supportedType (headerOf l).b0 = true ∧
      acceptHeader k w l s =
        .next ((s.setParsedHeader (headerOf l) (BitVec.ofNat 2 k.code)).finish .ok)) := by
  unfold acceptHeader
  rcases verify_cases w (l.take 5) (l.drop 5) with ⟨hc, hv⟩ | ⟨hc, hv⟩ <;>
    by_cases ht : supportedType (headerOf l).b0 = true <;> simp_all

/-- What a header section does. -/
theorem takeHeader_cases (k : StartKind) (w : CrcWidth) (x : HeaderSection) (s : State) :
    (x = .incomplete ∧ takeHeader k w x s = .next (s.finish .incomplete)) ∨
    (∃ used, x = .malformed used ∧
      takeHeader k w x s = .next ((s.setRxbuf (s.rxbuf.drop used)).finish .eHexfmt)) ∨
    (∃ l used, x = .found l used ∧
      takeHeader k w x s = acceptHeader k w l (s.setRxbuf (s.rxbuf.drop used))) := by
  cases x <;> simp [takeHeader]

/-- RX.HDR by what stands at the head of RXBUF. -/
theorem execRxHdr_cases (s : State) :
    (startKind s.rxbuf = .hex ∧ execRxHdr s = takeHeader .hex .w16 (hexSection s.rxbuf) s) ∨
    (startKind s.rxbuf = .bin16 ∧ execRxHdr s = takeHeader .bin16 .w16 (binSection .w16 s.rxbuf) s) ∨
    (startKind s.rxbuf = .bin32 ∧ execRxHdr s = takeHeader .bin32 .w32 (binSection .w32 s.rxbuf) s) ∨
    ((startKind s.rxbuf = .undecided ∨ s.rxbuf = []) ∧ execRxHdr s = .next (s.finish .incomplete)) ∨
    (startKind s.rxbuf = .noStart ∧ s.rxbuf ≠ [] ∧ execRxHdr s = .next (s.finish .eNoframe)) := by
  unfold execRxHdr
  cases h : startKind s.rxbuf <;> by_cases h' : s.rxbuf = [] <;> simp_all

/-! ### Subpackets -/

/-- A delimited subpacket: bad escape, CRC mismatch or accepted (R267). -/
theorem acceptSub_cases (w : CrcWidth) (raw : List Byte) (t : Byte) (got : List Byte) (s : State) :
    (zdecode raw = none ∧ acceptSub w raw t got s = .next (s.finish .eBadesc)) ∨
    ∃ p, zdecode raw = some p ∧
      ((crcOf w (p ++ [t]) ≠ got ∧
        acceptSub w raw t got s = .next (s.raiseCrc w (crcOf w (p ++ [t])) got)) ∨
       (crcOf w (p ++ [t]) = got ∧
        acceptSub w raw t got s = .next (((s.setObuf p).setSubt t).finish .ok))) := by
  unfold acceptSub
  cases h : zdecode raw with
  | none => simp
  | some p =>
    right
    refine ⟨p, rfl, ?_⟩
    rcases verify_cases w (p ++ [t]) got with ⟨hc, hv⟩ | ⟨hc, hv⟩ <;> simp [hv, hc]

/-- RX.SUB16 and RX.SUB32: incomplete with nothing changed, or consumed and judged. -/
theorem takeSub_cases (w : CrcWidth) (s : State) :
    ((scanTerm s.rxbuf = none ∨
        ∃ i, scanTerm s.rxbuf = some i ∧ splice w.bytes (s.rxbuf.drop (i + 2)) = none) ∧
      takeSub w s = .next (s.finish .incomplete)) ∨
    ∃ i got u, scanTerm s.rxbuf = some i ∧ splice w.bytes (s.rxbuf.drop (i + 2)) = some (got, u) ∧
      takeSub w s = acceptSub w (s.rxbuf.take i) (s.rxbuf.getD (i + 1) 0) got
        (s.setRxbuf (s.rxbuf.drop (i + 2 + u))) := by
  unfold takeSub
  cases h : scanTerm s.rxbuf with
  | none => simp
  | some i =>
    cases h' : splice w.bytes (s.rxbuf.drop (i + 2)) with
    | none => left; simp [h']
    | some r => right; exact ⟨i, r.1, r.2, rfl, h', by simp [h']⟩

end Sys2Proof.Machine
end

