-- ==== Sys2Proof/Laws/PerInstr.lean ====
section
/-! SUPPORT. The family RowMatch: the encoding of every well-formed instruction agrees with the `match` and `mask`
columns of its row of the opcode table, the code being read as the number the table reads it as. -/

namespace Sys2Proof.Laws

/-- The number of a code: a command word as it is, wire bytes as one big-endian number (30_encoding.md, head). -/
def codeNumber : Code → Nat
  | .word cw => cw.toNat
  | .wire bytes => bytes.foldl (fun n b => n * 256 + b.toNat) 0

/-- The `match` and `mask` columns of an instruction's row. -/
def tableRow : Instr → Nat × Nat
  | .nop => (0x0000, 0xFFFF)
  | .rst => (0x0100, 0xFFFF)
  | .cfg _ => (0x0200, 0xFFFC)
  | .zencRst => (0x0300, 0xFFFF)
  | .ibClr => (0x0800, 0xFFFF)
  | .ibPush _ => (0x0900, 0xFF00)
  | .ibLdob => (0x0A00, 0xFFFF)
  | .argSet0 _ => (0x0C00, 0xFF00)
  | .argSet1 _ => (0x0D00, 0xFF00)
  | .argSet2 _ => (0x0E00, 0xFF00)
  | .argSet3 _ => (0x0F00, 0xFF00)
  | .pack16 => (0x1000, 0xFFFF)
  | .unpack16 => (0x1100, 0xFFFF)
  | .pack32 => (0x1200, 0xFFFF)
  | .unpack32 => (0x1300, 0xFFFF)
  | .hexEnc => (0x1400, 0xFFFF)
  | .hexDec => (0x1500, 0xFFFF)
  | .crc16 => (0x1800, 0xFFFF)
  | .crc32 => (0x1900, 0xFFFF)
  | .vfy16 => (0x1A00, 0xFFFF)
  | .vfy32 => (0x1B00, 0xFFFF)
  | .zenc => (0x2000, 0xFFFF)
  | .zdec => (0x2100, 0xFFFF)
  | .zcls _ => (0x2200, 0xFF00)
  | .hdrSet0 _ => (0x2800, 0xFF00)
  | .hdrSet1 _ => (0x2900, 0xFF00)
  | .hdrSet2 _ => (0x2A00, 0xFF00)
  | .hdrSet3 _ => (0x2B00, 0xFF00)
  | .hdrSet4 _ => (0x2C00, 0xFF00)
  | .txHex _ => (0x3000, 0xFFFC)
  | .txBin16 => (0x3100, 0xFFFF)
  | .txBin32 => (0x3200, 0xFFFF)
  | .txSub16 _ => (0x3400, 0xFFFC)
  | .txSub32 _ => (0x3500, 0xFFFC)
  | .rxPush _ => (0x4000, 0xFF00)
  | .rxClr => (0x4100, 0xFFFF)
  | .rxTrim => (0x4200, 0xFFFF)
  | .rxHdr => (0x4300, 0xFFFF)
  | .rxSub16 => (0x4400, 0xFFFF)
  | .rxSub32 => (0x4500, 0xFFFF)
  | .rxScan => (0x4600, 0xFFFF)
  | .rxSplice _ => (0x4700, 0xFF00)
  | .illegal _ => (0x0000, 0x0000)
  | .wirePfxHex => (0x2A2A1842, 0xFFFFFFFF)
  | .wirePfxBin16 => (0x2A1841, 0xFFFFFF)
  | .wirePfxBin32 => (0x2A1843, 0xFFFFFF)
  | .wireEol0 => (0x0D0A11, 0xFFFFFF)
  | .wireEol1 => (0x0D0A, 0xFFFF)
  | .wireEol2 => (0x0A, 0xFF)
  | .wireTerm _ => (0x1868, 0xFFFC)
  | .wireEsc _ => (0x1840, 0xFF60)

/-- The encoding of a well-formed instruction, under its row's mask, is its row's match. -/
def RowMatch.Statement (i : Instr) : Prop :=
  i.wellFormed = true → codeNumber (encode i) &&& (tableRow i).2 = (tableRow i).1

theorem RowMatch.nop : RowMatch.Statement .nop := by unfold RowMatch.Statement; decide
theorem RowMatch.rst : RowMatch.Statement .rst := by unfold RowMatch.Statement; decide
theorem RowMatch.cfg : ∀ sel : BitVec 2, RowMatch.Statement (.cfg sel) := by
  unfold RowMatch.Statement; decide +kernel
theorem RowMatch.zencRst : RowMatch.Statement .zencRst := by unfold RowMatch.Statement; decide
theorem RowMatch.ibClr : RowMatch.Statement .ibClr := by unfold RowMatch.Statement; decide
theorem RowMatch.ibPush : ∀ b : Byte, RowMatch.Statement (.ibPush b) := by
  unfold RowMatch.Statement; decide +kernel
theorem RowMatch.ibLdob : RowMatch.Statement .ibLdob := by unfold RowMatch.Statement; decide
theorem RowMatch.argSet0 : ∀ b : Byte, RowMatch.Statement (.argSet0 b) := by
  unfold RowMatch.Statement; decide +kernel
theorem RowMatch.argSet1 : ∀ b : Byte, RowMatch.Statement (.argSet1 b) := by
  unfold RowMatch.Statement; decide +kernel
theorem RowMatch.argSet2 : ∀ b : Byte, RowMatch.Statement (.argSet2 b) := by
  unfold RowMatch.Statement; decide +kernel
theorem RowMatch.argSet3 : ∀ b : Byte, RowMatch.Statement (.argSet3 b) := by
  unfold RowMatch.Statement; decide +kernel
theorem RowMatch.pack16 : RowMatch.Statement .pack16 := by unfold RowMatch.Statement; decide
theorem RowMatch.unpack16 : RowMatch.Statement .unpack16 := by unfold RowMatch.Statement; decide
theorem RowMatch.pack32 : RowMatch.Statement .pack32 := by unfold RowMatch.Statement; decide
theorem RowMatch.unpack32 : RowMatch.Statement .unpack32 := by unfold RowMatch.Statement; decide
theorem RowMatch.hexEnc : RowMatch.Statement .hexEnc := by unfold RowMatch.Statement; decide
theorem RowMatch.hexDec : RowMatch.Statement .hexDec := by unfold RowMatch.Statement; decide
theorem RowMatch.crc16 : RowMatch.Statement .crc16 := by unfold RowMatch.Statement; decide
theorem RowMatch.crc32 : RowMatch.Statement .crc32 := by unfold RowMatch.Statement; decide
theorem RowMatch.vfy16 : RowMatch.Statement .vfy16 := by unfold RowMatch.Statement; decide
theorem RowMatch.vfy32 : RowMatch.Statement .vfy32 := by unfold RowMatch.Statement; decide
theorem RowMatch.zenc : RowMatch.Statement .zenc := by unfold RowMatch.Statement; decide
theorem RowMatch.zdec : RowMatch.Statement .zdec := by unfold RowMatch.Statement; decide
theorem RowMatch.zcls : ∀ b : Byte, RowMatch.Statement (.zcls b) := by
  unfold RowMatch.Statement; decide +kernel
theorem RowMatch.hdrSet0 : ∀ b : Byte, RowMatch.Statement (.hdrSet0 b) := by
  unfold RowMatch.Statement; decide +kernel
theorem RowMatch.hdrSet1 : ∀ b : Byte, RowMatch.Statement (.hdrSet1 b) := by
  unfold RowMatch.Statement; decide +kernel
theorem RowMatch.hdrSet2 : ∀ b : Byte, RowMatch.Statement (.hdrSet2 b) := by
  unfold RowMatch.Statement; decide +kernel
theorem RowMatch.hdrSet3 : ∀ b : Byte, RowMatch.Statement (.hdrSet3 b) := by
  unfold RowMatch.Statement; decide +kernel
theorem RowMatch.hdrSet4 : ∀ b : Byte, RowMatch.Statement (.hdrSet4 b) := by
  unfold RowMatch.Statement; decide +kernel
theorem RowMatch.txHex : ∀ sel : BitVec 2, RowMatch.Statement (.txHex sel) := by
  unfold RowMatch.Statement; decide +kernel
theorem RowMatch.txBin16 : RowMatch.Statement .txBin16 := by unfold RowMatch.Statement; decide
theorem RowMatch.txBin32 : RowMatch.Statement .txBin32 := by unfold RowMatch.Statement; decide
theorem RowMatch.txSub16 : ∀ sel : BitVec 2, RowMatch.Statement (.txSub16 sel) := by
  unfold RowMatch.Statement; decide +kernel
theorem RowMatch.txSub32 : ∀ sel : BitVec 2, RowMatch.Statement (.txSub32 sel) := by
  unfold RowMatch.Statement; decide +kernel
theorem RowMatch.rxPush : ∀ b : Byte, RowMatch.Statement (.rxPush b) := by
  unfold RowMatch.Statement; decide +kernel
theorem RowMatch.rxClr : RowMatch.Statement .rxClr := by unfold RowMatch.Statement; decide
theorem RowMatch.rxTrim : RowMatch.Statement .rxTrim := by unfold RowMatch.Statement; decide
theorem RowMatch.rxHdr : RowMatch.Statement .rxHdr := by unfold RowMatch.Statement; decide
theorem RowMatch.rxSub16 : RowMatch.Statement .rxSub16 := by unfold RowMatch.Statement; decide
theorem RowMatch.rxSub32 : RowMatch.Statement .rxSub32 := by unfold RowMatch.Statement; decide
theorem RowMatch.rxScan : RowMatch.Statement .rxScan := by unfold RowMatch.Statement; decide
theorem RowMatch.rxSplice : ∀ n : Byte, RowMatch.Statement (.rxSplice n) := by
  unfold RowMatch.Statement; decide +kernel
theorem RowMatch.illegal (cw : CommandWord) : RowMatch.Statement (.illegal cw) := fun _ => Nat.and_zero _
theorem RowMatch.wirePfxHex : RowMatch.Statement .wirePfxHex := by unfold RowMatch.Statement; decide
theorem RowMatch.wirePfxBin16 : RowMatch.Statement .wirePfxBin16 := by unfold RowMatch.Statement; decide
theorem RowMatch.wirePfxBin32 : RowMatch.Statement .wirePfxBin32 := by unfold RowMatch.Statement; decide
theorem RowMatch.wireEol0 : RowMatch.Statement .wireEol0 := by unfold RowMatch.Statement; decide
theorem RowMatch.wireEol1 : RowMatch.Statement .wireEol1 := by unfold RowMatch.Statement; decide
theorem RowMatch.wireEol2 : RowMatch.Statement .wireEol2 := by unfold RowMatch.Statement; decide
theorem RowMatch.wireTerm : ∀ k : BitVec 2, RowMatch.Statement (.wireTerm k) := by
  unfold RowMatch.Statement; decide +kernel
theorem RowMatch.wireEsc : ∀ f : Byte, RowMatch.Statement (.wireEsc f) := by
  unfold RowMatch.Statement; decide +kernel

end Sys2Proof.Laws
end

