-- ==== Sys2Proof/Tests/Slice0.lean ====
section
/-! SUPPORT. The model's own tests. Expected values are the spec's: the rule's own example, a row of
spec/95_test_vectors.md, or the table of the rule named. After them, for every statement with hypotheses, a named
witness of a state and operands that meet them, clause by clause, at the boundary values. -/

namespace Sys2Proof.Tests

open Sys2Proof Sys2Proof.Machine

/-! ### Helpers: small states and the result of one instruction -/

/-- The reset state with an operand buffer. -/
def ib (bytes : List Byte) : State := { State.reset with ibuf := bytes }

/-- The reset state with a receive buffer. -/
def rx (bytes : List Byte) : State := { State.reset with rxbuf := bytes }

/-- The reset state with ARG. -/
def ar (v : BitVec 32) : State := { State.reset with arg := v }

/-- The reset state with CFG. -/
def cf (c : BitVec 2) (s : State) : State := { s with cfg := c }

/-- The reset state with HDR. -/
def hd (b0 b1 b2 b3 b4 : Byte) : State := { State.reset with hdr := ⟨b0, b1, b2, b3, b4⟩ }

/-- The state after one instruction, which always completes. -/
def after (i : Instr) (s : State) : State :=
  match exec i s with
  | .next t => t
  | .fault _ => s
  | .refused _ => s

/-- The state after one step. -/
def stepped (s : State) : State :=
  match step s with
  | .next t => t
  | .fault _ => s
  | .refused _ => s

/-- The nine ASCII bytes "123456789" of R142 and R146. -/
def check : List Byte := [0x31, 0x32, 0x33, 0x34, 0x35, 0x36, 0x37, 0x38, 0x39]

/-- The 18 bytes `G` of R219. -/
def g18 : List Byte :=
  [0x2A, 0x2A, 0x18, 0x42, 0x30, 0x39, 0x30, 0x30, 0x30, 0x34, 0x30, 0x30, 0x30, 0x30, 0x37, 0x34, 0x62, 0x63]

/-- "hello", the payload of R234. -/
def hello : List Byte := [0x68, 0x65, 0x6C, 0x6C, 0x6F]

/-! ### WellFormed refuses ill-formed terms -/

theorem test_txHex_selector_3_is_ill_formed : (Instr.txHex 3).wellFormed = false := by decide
theorem test_illegal_of_a_legal_word_is_ill_formed : (Instr.illegal 0x0000).wellFormed = false := by decide
theorem test_wireEsc_of_a_terminator_is_ill_formed : (Instr.wireEsc 0x68).wellFormed = false := by decide
theorem test_wireEsc_of_a_low_follower_is_ill_formed : (Instr.wireEsc 0x00).wellFormed = false := by decide
theorem test_well_formed_terms :
    (Instr.txHex 2).wellFormed = true ∧ (Instr.illegal 0x0001).wellFormed = true ∧
    (Instr.wireEsc 0xDF).wellFormed = true := by decide
theorem test_params_below_the_minimum_are_ill_formed :
    Config.Params.wellFormed { ibufCap := some 8191, rxbufCap := none } = false ∧
    Config.Params.wellFormed { ibufCap := none, rxbufCap := some 16393 } = false := by decide

/-! ### Decode: each row's word, from the `match` column of R74 and the formats of R72 -/

theorem test_decode_system :
    decodeCommand 0x0000 = .nop ∧ decodeCommand 0x0100 = .rst ∧ decodeCommand 0x0201 = .cfg 1 ∧
    decodeCommand 0x0203 = .cfg 3 ∧ decodeCommand 0x0300 = .zencRst := by decide
theorem test_decode_buffers :
    decodeCommand 0x0800 = .ibClr ∧ decodeCommand 0x0941 = .ibPush 0x41 ∧ decodeCommand 0x0A00 = .ibLdob ∧
    decodeCommand 0x4018 = .rxPush 0x18 ∧ decodeCommand 0x4100 = .rxClr := by decide
theorem test_decode_registers :
    decodeCommand 0x0CAA = .argSet0 0xAA ∧ decodeCommand 0x0DAB = .argSet1 0xAB ∧
    decodeCommand 0x0EAC = .argSet2 0xAC ∧ decodeCommand 0x0FAD = .argSet3 0xAD ∧
    decodeCommand 0x2809 = .hdrSet0 0x09 ∧ decodeCommand 0x2901 = .hdrSet1 0x01 ∧
    decodeCommand 0x2A04 = .hdrSet2 0x04 ∧ decodeCommand 0x2BFF = .hdrSet3 0xFF ∧
    decodeCommand 0x2C23 = .hdrSet4 0x23 := by decide
theorem test_decode_primitives :
    decodeCommand 0x1000 = .pack16 ∧ decodeCommand 0x1100 = .unpack16 ∧ decodeCommand 0x1200 = .pack32 ∧
    decodeCommand 0x1300 = .unpack32 ∧ decodeCommand 0x1400 = .hexEnc ∧ decodeCommand 0x1500 = .hexDec := by
  decide
theorem test_decode_crc :
    decodeCommand 0x1800 = .crc16 ∧ decodeCommand 0x1900 = .crc32 ∧ decodeCommand 0x1A00 = .vfy16 ∧
    decodeCommand 0x1B00 = .vfy32 := by decide
theorem test_decode_zdle :
    decodeCommand 0x2000 = .zenc ∧ decodeCommand 0x2100 = .zdec ∧ decodeCommand 0x2218 = .zcls 0x18 ∧
    decodeCommand 0x4702 = .rxSplice 2 := by decide
theorem test_decode_headers :
    decodeCommand 0x3000 = .txHex 0 ∧ decodeCommand 0x3002 = .txHex 2 ∧ decodeCommand 0x3100 = .txBin16 ∧
    decodeCommand 0x3200 = .txBin32 ∧ decodeCommand 0x4200 = .rxTrim ∧ decodeCommand 0x4300 = .rxHdr := by
  decide
theorem test_decode_subpackets :
    decodeCommand 0x3400 = .txSub16 0 ∧ decodeCommand 0x3503 = .txSub32 3 ∧ decodeCommand 0x4400 = .rxSub16 ∧
    decodeCommand 0x4500 = .rxSub32 ∧ decodeCommand 0x4600 = .rxScan := by decide
theorem test_decode_illegal_words :
    decodeCommand 0x0001 = .illegal 0x0001 ∧ decodeCommand 0x0204 = .illegal 0x0204 ∧
    decodeCommand 0x0400 = .illegal 0x0400 ∧ decodeCommand 0x3003 = .illegal 0x3003 ∧
    decodeCommand 0x3404 = .illegal 0x3404 ∧ decodeCommand 0xFFFF = .illegal 0xFFFF := by decide
theorem test_decode_wire_rows :
    decode (.wire [0x2A, 0x2A, 0x18, 0x42]) = .ok .wirePfxHex ∧
    decode (.wire [0x2A, 0x18, 0x41]) = .ok .wirePfxBin16 ∧
    decode (.wire [0x2A, 0x18, 0x43]) = .ok .wirePfxBin32 ∧
    decode (.wire [0x0D, 0x0A, 0x11]) = .ok .wireEol0 ∧ decode (.wire [0x0D, 0x0A]) = .ok .wireEol1 ∧
    decode (.wire [0x0A]) = .ok .wireEol2 ∧ decode (.wire [0x18, 0x6B]) = .ok (.wireTerm 3) ∧
    decode (.wire [0x18, 0x58]) = .ok (.wireEsc 0x58) := by decide
theorem test_decode_rejects_other_bytes :
    decode (.wire [0x2A, 0x18, 0x42]) = .error (.notAWirePattern [0x2A, 0x18, 0x42]) ∧
    decode (.wire [0x18, 0x6C]) = .error (.notAWirePattern [0x18, 0x6C]) ∧
    decode (.wire []) = .error (.notAWirePattern []) := by decide
theorem test_table_words :
    decodeTableWord 16 0x0941 = some (.ibPush 0x41) ∧ decodeTableWord 32 0x2A2A1842 = some .wirePfxHex ∧
    decodeTableWord 24 0x0D0A11 = some .wireEol0 ∧ decodeTableWord 16 0x0D0A = some (.argSet1 0x0A) ∧
    decodeTableWord 8 0x0A = some .wireEol2 ∧ decodeTableWord 16 0x1868 = some (.wireTerm 0) := by decide
/-- R95's own examples. -/
theorem test_assembler_lines :
    asmLine (.ibPush 0x41) = some "IB.PUSH 0x41" ∧ asmLine (.txSub32 3) = some "TX.SUB32 3" ∧
    asmLine .rxHdr = some "RX.HDR" := by decide

/-! ### One instruction at a time -/

/-- R100: NOP clears a failure code. -/
theorem test_nop : after .nop { State.reset with status := 0x88 } = State.reset := by decide
/-- R101. -/
theorem test_rst : after .rst { rx [1, 2] with cfg := 3, lastcode := 0x40, txout := [5], hfmt := 2 } = State.reset := by
  decide
/-- R102. -/
theorem test_cfg : after (.cfg 1) { State.reset with status := 0x80 } = cf 1 State.reset := by decide
/-- R103: after ZENC of `40`, ZENC.RST, ZENC of `0D` is not escaped; without it it is. -/
theorem test_zencRst : (after .zenc (after .zencRst { ib [0x0D] with lastcode := 0x40 })).obuf = [0x0D] := by decide
theorem test_zenc_context : (after .zenc { ib [0x0D] with lastcode := 0x40 }).obuf = [0x18, 0x4D] := by decide
/-- R105, R106, R107. -/
theorem test_ibClr : after .ibClr (ib [1, 2]) = State.reset := by decide
theorem test_ibPush : after (.ibPush 0x18) (ib [0x41]) = ib [0x41, 0x18] := by decide
theorem test_ibPush_full :
    after (.ibPush 0x18) { ib [0x41] with params := ⟨some 1, none⟩ } =
      { ib [0x41] with params := ⟨some 1, none⟩, status := 0x87 } := by decide
theorem test_ibLdob : (after .ibLdob { State.reset with obuf := [0x18, 0x51] }).ibuf = [0x18, 0x51] := by decide
theorem test_ibLdob_too_long :
    after .ibLdob { ib [7] with obuf := [1, 2], params := ⟨some 1, none⟩ } =
      { ib [7] with obuf := [1, 2], params := ⟨some 1, none⟩, status := 0x87 } := by decide
/-- R108 to R112. -/
theorem test_argSet0 : after (.argSet0 0xAA) (ar 0x11223344) = ar 0x112233AA := by decide
theorem test_argSet1 : after (.argSet1 0xAA) (ar 0x11223344) = ar 0x1122AA44 := by decide
theorem test_argSet2 : after (.argSet2 0xAA) (ar 0x11223344) = ar 0x11AA3344 := by decide
theorem test_argSet3 : after (.argSet3 0xAA) (ar 0x11223344) = ar 0xAA223344 := by decide
/-- R109, R116 to R119. -/
theorem test_hdrSet0 : after (.hdrSet0 9) (hd 1 2 3 4 5) = hd 9 2 3 4 5 := by decide
theorem test_hdrSet1 : after (.hdrSet1 9) (hd 1 2 3 4 5) = hd 1 9 3 4 5 := by decide
theorem test_hdrSet2 : after (.hdrSet2 9) (hd 1 2 3 4 5) = hd 1 2 9 4 5 := by decide
theorem test_hdrSet3 : after (.hdrSet3 9) (hd 1 2 3 4 5) = hd 1 2 3 9 5 := by decide
theorem test_hdrSet4 : after (.hdrSet4 9) (hd 1 2 3 4 5) = hd 1 2 3 4 9 := by decide
/-- R114, R115. -/
theorem test_rxPush_drops_xon : after (.rxPush 0x11) (rx [0x2A]) = rx [0x2A] := by decide
theorem test_rxPush : after (.rxPush 0x18) (rx [0x2A]) = rx [0x2A, 0x18] := by decide
theorem test_rxClr : after .rxClr (rx [1, 2, 3]) = State.reset := by decide
/-- R121, R123, R125, R127. -/
theorem test_pack16 : (after .pack16 (ar 0x1234)).obuf = [0x12, 0x34] := by decide
theorem test_pack16_range : after .pack16 (ar 0x10000) = { ar 0x10000 with status := 0x81 } := by decide
theorem test_unpack16 : (after .unpack16 (ib [0x12, 0x34])).arg = 0x1234 := by decide
theorem test_unpack16_length : after .unpack16 (ib [1]) = { ib [1] with status := 0x88 } := by decide
theorem test_pack32 : (after .pack32 (ar 0x12345678)).obuf = [0x78, 0x56, 0x34, 0x12] := by decide
theorem test_unpack32 : (after .unpack32 (ib [0x78, 0x56, 0x34, 0x12])).arg = 0x12345678 := by decide
theorem test_unpack32_length : (after .unpack32 (ib [0, 4, 0])).status = 0x88 := by decide
/-- R129, R131. -/
theorem test_hexEnc :
    (after .hexEnc (ib [0x09, 0x0A, 0xFF])).obuf = [0x30, 0x39, 0x30, 0x61, 0x66, 0x66] := by decide
theorem test_hexDec : (after .hexDec (ib [0x37, 0x34, 0x62, 0x63])).obuf = [0x74, 0xBC] := by decide
theorem test_hexDec_upper_case : after .hexDec (ib [0x30, 0x41]) = { ib [0x30, 0x41] with status := 0x84 } := by
  decide
/-- R145, R150. -/
theorem test_crc16 : after .crc16 (ib check) = { ib check with obuf := [0x31, 0xC3], arg := 0x31C3 } := by
  decide +kernel
theorem test_crc32 :
    after .crc32 (ib check) = { ib check with obuf := [0x26, 0x39, 0xF4, 0xCB], arg := 0xCBF43926 } := by
  decide +kernel
/-- R152, R153. -/
theorem test_vfy16 : after .vfy16 (ib (check ++ [0x31, 0xC3])) = ib (check ++ [0x31, 0xC3]) := by decide +kernel
theorem test_vfy16_mismatch :
    after .vfy16 (ib (check ++ [0x31, 0xC2])) =
      { ib (check ++ [0x31, 0xC2]) with
        crcx := ⟨0x31, 0xC3, 0, 0⟩, crcg := ⟨0x31, 0xC2, 0, 0⟩, status := 0x82 } := by decide +kernel
theorem test_vfy32 : after .vfy32 (ib [0, 0, 0, 0]) = ib [0, 0, 0, 0] := by decide +kernel
theorem test_vfy32_mismatch :
    after .vfy32 (ib (check ++ [0x26, 0x39, 0xF4, 0xCA])) =
      { ib (check ++ [0x26, 0x39, 0xF4, 0xCA]) with
        crcx := ⟨0x26, 0x39, 0xF4, 0xCB⟩, crcg := ⟨0x26, 0x39, 0xF4, 0xCA⟩, crck := 1, status := 0x82 } := by
  decide +kernel
/-- R165. -/
theorem test_zcls :
    (after (.zcls 0x18) State.reset).arg = 1 ∧ (after (.zcls 0x0D) State.reset).arg = 2 ∧
    (after (.zcls 0x0D) (cf 2 State.reset)).arg = 0 := by decide
/-- R167. -/
theorem test_zenc :
    after .zenc (ib [0x40, 0x40, 0x0D, 0x0D]) =
      { ib [0x40, 0x40, 0x0D, 0x0D] with obuf := [0x40, 0x40, 0x18, 0x4D, 0x0D], lastcode := 0x0D } := by decide
theorem test_zenc_ecc :
    (after .zenc (cf 1 (ib [0x7F, 0xFF, 0x00, 0x1F, 0x80, 0x9F]))).obuf =
      [0x7F, 0xFF, 0x18, 0x40, 0x18, 0x5F, 0x18, 0xC0, 0x18, 0xDF] := by decide
/-- R170. -/
theorem test_zdec : (after .zdec (ib [0x40, 0x18, 0x4D])).obuf = [0x40, 0x0D] := by decide
theorem test_zdec_lone : after .zdec (ib [0x41, 0x18]) = { ib [0x41, 0x18] with status := 0x86 } := by decide
/-- R173. -/
theorem test_rxSplice :
    after (.rxSplice 2) (rx [0x41, 0x18, 0x58, 0x42]) = { rx [0x42] with obuf := [0x41, 0x18] } := by decide
theorem test_rxSplice_incomplete :
    after (.rxSplice 2) (rx [0x41, 0x18]) = { rx [0x41, 0x18] with status := 0x01 } := by decide
/-- R193. -/
theorem test_txHex :
    after (.txHex 0) (hd 9 0 4 0 0) = { hd 9 0 4 0 0 with txout := g18 ++ [0x0D, 0x0A, 0x11] } := by
  decide +kernel
theorem test_txHex_lf : (after (.txHex 2) (hd 9 0 4 0 0)).txout = g18 ++ [0x0A] := by decide +kernel
/-- R196, R197. -/
theorem test_txBin16 :
    after .txBin16 (hd 9 0x18 0 0 0) =
      { hd 9 0x18 0 0 0 with
        txout := [0x2A, 0x18, 0x41, 9, 0x18, 0x58, 0, 0, 0, 0x36, 0x18, 0x58], lastcode := 0x18 } := by
  decide +kernel
theorem test_txBin32 :
    after .txBin32 (hd 9 0 4 0 0) =
      { hd 9 0 4 0 0 with
        txout := [0x2A, 0x18, 0x43, 9, 0, 4, 0, 0, 0xB0, 0x3D, 0x3B, 0xCC], lastcode := 0xCC } := by
  decide +kernel
/-- R207. -/
theorem test_rxTrim :
    after .rxTrim (rx [0x2A, 0x2A, 0x2A, 0x18, 0x42]) =
      { rx [0x2A, 0x2A, 0x18, 0x42] with obuf := [0x2A], arg := 1 } := by decide
theorem test_rxTrim_undecided :
    after .rxTrim (rx [0x48, 0x69, 0x2A]) = { rx [0x2A] with obuf := [0x48, 0x69] } := by decide
/-- R219. -/
theorem test_rxHdr_hex :
    after .rxHdr (rx (g18 ++ [0x0D, 0x0A, 0x2A])) = { rx [0x2A] with rxh := ⟨9, 0, 4, 0, 0⟩, hfmt := 1 } := by
  decide +kernel
theorem test_rxHdr_bin16_crc :
    after .rxHdr (rx [0x2A, 0x18, 0x41, 9, 0, 4, 0, 0, 0x74, 0xBD]) =
      { State.reset with crcx := ⟨0x74, 0xBC, 0, 0⟩, crcg := ⟨0x74, 0xBD, 0, 0⟩, status := 0x82 } := by
  decide +kernel
/-- R234, R235. -/
theorem test_txSub16 :
    after (.txSub16 0) (ib [0x25, 0x40]) =
      { ib [0x25, 0x40] with txout := [0x25, 0x40, 0x18, 0x68, 0x18, 0xCD, 0x54], lastcode := 0x54 } := by
  decide +kernel
theorem test_txSub32 :
    after (.txSub32 3) (ib hello) =
      { ib hello with txout := hello ++ [0x18, 0x6B, 0xEE, 0x61, 0x8F, 0x0C], lastcode := 0x0C } := by
  decide +kernel
/-- R238. -/
theorem test_rxScan :
    after .rxScan (rx (hello ++ [0x18, 0x68, 0x66, 0x81])) =
      { rx (hello ++ [0x18, 0x68, 0x66, 0x81]) with arg := 5, subt := 0x68 } := by decide
theorem test_rxScan_none : after .rxScan (rx hello) = { rx hello with status := 0x01 } := by decide
/-- R240, R245, R249. -/
theorem test_rxSub16 :
    after .rxSub16 (rx (hello ++ [0x18, 0x68, 0x66, 0x81, 0x41])) =
      { rx [0x41] with obuf := hello, subt := 0x68 } := by decide +kernel
theorem test_rxSub16_bad_escape :
    after .rxSub16 (rx [0x18, 0x18, 0x68, 0, 0]) = { State.reset with status := 0x86 } := by decide
theorem test_rxSub32 :
    after .rxSub32 (rx [0x18, 0x68, 0xE7, 0x06, 0x6B, 0x18, 0xD1]) = { State.reset with subt := 0x68 } := by
  decide +kernel
theorem test_rxSub32_incomplete :
    (after .rxSub32 (rx (hello ++ [0x18, 0x6B, 0xEE, 0x61, 0x8F]))).status = 0x01 := by decide
/-- R90. -/
theorem test_illegal : after (.illegal 0x0400) (ib [1]) = { ib [1] with status := 0x80 } := by decide
/-- R96, R114, R270 (log 3): the wire rows; the XON of R78 is dropped. -/
theorem test_wire_prefixes :
    after .wirePfxHex State.reset = rx [0x2A, 0x2A, 0x18, 0x42] ∧
    after .wirePfxBin16 State.reset = rx [0x2A, 0x18, 0x41] ∧
    after .wirePfxBin32 State.reset = rx [0x2A, 0x18, 0x43] := by decide
theorem test_wire_line_endings :
    after .wireEol0 (rx [1]) = rx [1, 0x0D, 0x0A] ∧ after .wireEol1 (rx [1]) = rx [1, 0x0D, 0x0A] ∧
    after .wireEol2 (rx [1]) = rx [1, 0x0A] := by decide
theorem test_wire_pairs :
    after (.wireTerm 1) State.reset = rx [0x18, 0x69] ∧ after (.wireEsc 0x51) State.reset = rx [0x18, 0x51] := by
  decide

/-! ### The step -/

/-- A command word, a wire row of each width and an illegal word, run as the first instruction after reset. -/
theorem test_step_runs_the_fetched_word :
    stepped (State.reset.withFetchWord 16 0x0941) = ib [0x41] ∧
    stepped (State.reset.withFetchWord 32 0x2A2A1842) = rx [0x2A, 0x2A, 0x18, 0x42] ∧
    stepped (State.reset.withFetchWord 24 0x2A1841) = rx [0x2A, 0x18, 0x41] ∧
    stepped (State.reset.withFetchWord 16 0x1868) = rx [0x18, 0x68] ∧
    stepped (State.reset.withFetchWord 8 0x0A) = rx [0x0A] ∧
    stepped (State.reset.withFetchWord 16 0x3003) = { State.reset with status := 0x80 } := by decide
theorem test_step_idle : stepped (ib [1]) = ib [1] := by decide
theorem test_step_reset_input :
    stepped { ib [1] with pending := [.resetInput, .present (.word 0x0000)] } =
      { State.reset with pending := [.present (.word 0x0000)] } := by decide
theorem test_reset : State.reset.status = 0x00 ∧ State.reset.cfg = 0 ∧ State.reset.txout = [] := by decide
theorem test_read_ports :
    readPort (hd 9 0 4 0 0) (.hdr 2) = .register 4 ∧ readPort (rx [1, 2]) .rxbuf = .buffer [1, 2] ∧
    lastHeaderCrcWidth { State.reset with hfmt := 3 } = .w32 ∧ lastHeaderCrcWidth State.reset = .w16 := by decide

/-! ### Witnesses: the hypotheses of each statement can be met, clause by clause -/

/-- A full one-byte IBUF and RXBUF, and an OBUF one byte too long. -/
def small : State :=
  { State.reset with ibuf := [7], rxbuf := [7], obuf := [1, 2], params := ⟨some 1, some 1⟩ }

theorem witness_CfgCommandRuns :
    (0x0204 : CommandWord).extractLsb' 8 8 = 0x02#8 ∧ (0x0204 : CommandWord).extractLsb' 2 6 ≠ 0#6 ∧
    (0x02FF : CommandWord).extractLsb' 8 8 = 0x02#8 ∧ (0x02FF : CommandWord).extractLsb' 2 6 ≠ 0#6 := by decide
theorem witness_OperandBufferCommandsRun :
    State.reset.params.ibufCap ≠ some State.reset.ibuf.length ∧
    { small with ibuf := [] }.params.ibufCap ≠ some 0 ∧ small.params.ibufCap = some small.ibuf.length ∧
    (∀ cap, { small with obuf := [1] }.params.ibufCap = some cap → 1 ≤ cap) ∧
    small.params.ibufCap = some 1 ∧ 1 < small.obuf.length := by
  refine ⟨by decide, by decide, by decide, ?_, by decide, by decide⟩
  intro cap h; cases h; exact Nat.le_refl 1
theorem witness_ReceiveBufferCommandsRun :
    ((0x91 : Byte) = 0x11 ∨ (0x91 : Byte) = 0x13 ∨ (0x91 : Byte) = 0x91 ∨ (0x91 : Byte) = 0x93) ∧
    ¬ ((0x12 : Byte) = 0x11 ∨ (0x12 : Byte) = 0x13 ∨ (0x12 : Byte) = 0x91 ∨ (0x12 : Byte) = 0x93) ∧
    small.params.rxbufCap = some small.rxbuf.length ∧
    { small with rxbuf := [] }.params.rxbufCap ≠ some 0 := by decide
theorem witness_PackCommandsRun :
    (ar 0xFFFF).arg.toNat ≤ 0xFFFF ∧ 0xFFFF < (ar 0x10000).arg.toNat := by decide
theorem witness_UnpackCommandsRun :
    (ib [0xFF, 0xFF]).ibuf = [0xFF, 0xFF] ∧ (ib [1]).ibuf.length ≠ 2 ∧ (ib [1, 2, 3]).ibuf.length ≠ 2 ∧
    (ib [0, 0, 0, 0x80]).ibuf = [0, 0, 0, 0x80] ∧ (ib [1, 2, 3]).ibuf.length ≠ 4 := by decide
theorem witness_HexCommandsRun :
    hexEncode [0x09, 0xAF] = [0x30, 0x39, 0x61, 0x66] ∧ (ib [0x30]).ibuf.length % 2 = 1 ∧
    (∃ c ∈ (ib [0x30, 0x67]).ibuf, c ∉ hexDigits) ∧ (∃ c ∈ (ib [0x3A, 0x30]).ibuf, c ∉ hexDigits) ∧
    (after .hexDec (ib [0x30, 0x39, 0x61, 0x66])).obuf = [0x09, 0xAF] := by decide
theorem witness_VerifyCommandsRun :
    (ib [0, 0]).ibuf = [] ++ crc16 [] ∧ (ib [0, 1]).ibuf = [] ++ [0, 1] ∧ crc16 [] ≠ [0, 1] ∧
    (ib [0]).ibuf.length < 2 ∧ (ib [0, 0, 0, 0]).ibuf = [] ++ crc32 [] ∧
    (ib [0, 0, 0, 1]).ibuf = [] ++ [0, 0, 0, 1] ∧ crc32 [] ≠ [0, 0, 0, 1] ∧ (ib [0, 0, 0]).ibuf.length < 4 := by
  decide +kernel
theorem witness_DecoderCommandsRun :
    zdecode (ib [0x18, 0x18]).ibuf = some [0xD8] ∧ zdecode (ib [0x41, 0x18]).ibuf = none ∧
    splice (1 : Byte).toNat (rx [0x18, 0x58]).rxbuf = some ([0x18], 2) ∧
    splice (0 : Byte).toNat (rx []).rxbuf = some ([], 0) ∧
    splice (2 : Byte).toNat (rx [0x41, 0x18]).rxbuf = none ∧ (0x41 : Byte) ≠ 0x18 := by decide
theorem witness_HexHeaderSent :
    (0x3003 : CommandWord).extractLsb' 8 8 = 0x30#8 ∧ (0x3003 : CommandWord).extractLsb' 0 2 = 3#2 ∧
    (0x3004 : CommandWord).extractLsb' 8 8 = 0x30#8 ∧ (0x3004 : CommandWord).extractLsb' 2 6 ≠ 0#6 := by decide
theorem witness_HeaderNotThereOutcomes :
    (rx []).rxbuf = [] ∧ startKind (rx [0x2A, 0x2A, 0x18]).rxbuf = .undecided ∧
    (rx [0x41]).rxbuf ≠ [] ∧ startKind (rx [0x41]).rxbuf = .noStart := by decide
theorem witness_BinaryHeaderOutcomes :
    startKind [0x2A, 0x18, 0x41, 9, 0, 4, 0, 0, 0x74] = .bin16 ∧ splice 7 [9, 0, 4, 0, 0, 0x74] = none ∧
    startKind [0x2A, 0x18, 0x41, 9, 0, 4, 0, 0, 0x74, 0xBC] = .bin16 ∧
    splice 7 [9, 0, 4, 0, 0, 0x74, 0xBC] = some ([9, 0, 4, 0, 0, 0x74, 0xBC], 7) ∧
    startKind [0x2A, 0x18, 0x43, 9, 0, 4, 0, 0, 0xB0, 0x3D, 0x3B] = .bin32 ∧
    splice 9 [9, 0, 4, 0, 0, 0xB0, 0x3D, 0x3B] = none ∧
    splice 9 [9, 0, 4, 0, 0, 0xB0, 0x3D, 0x3B, 0xCC] = some ([9, 0, 4, 0, 0, 0xB0, 0x3D, 0x3B, 0xCC], 9) := by
  decide
/-- RX.HDR on a binary header: OK at type 11, E_UNSUPPORTED at type 12 (R219), E_CRC. -/
theorem witness_BinaryHeaderOutcomes_types :
    (after .rxHdr (rx (binPrefix .w16 ++ [11, 0, 0, 0, 0] ++ crc16 [11, 0, 0, 0, 0]))).status = 0x00 ∧
    (after .rxHdr (rx [0x2A, 0x18, 0x41, 12, 0, 0, 0, 0, 0x8B, 0x2B])).status = 0x83 ∧
    (after .rxHdr (rx [0x2A, 0x18, 0x43, 9, 0, 4, 0, 0, 0xB0, 0x3D, 0x3B, 0xCD])).status = 0x82 := by
  decide +kernel
theorem witness_HexFramingOutcomes :
    (startKind (g18 ++ [0x0D]) = .hex ∧ (g18 ++ [0x0D]).length < 20 ∧ 0x0A ∉ g18 ++ [0x0D]) ∧
    (20 ≤ (g18 ++ [0x0D, 0x0D]).length ∧ 0x0A ∉ (g18 ++ [0x0D, 0x0D]).take 20) ∧
    ((g18 ++ [0x20, 0x0A])[19]? = some 0x0A ∧ 0x0A ∉ (g18 ++ [0x20, 0x0A]).take 19 ∧
      ¬ (19 = 18 ∨ (19 = 19 ∧ (g18 ++ [0x20, 0x0A])[18]? = some 0x0D))) ∧
    ((g18.take 17 ++ [0x42, 0x0A])[18]? = some 0x0A ∧ 0x0A ∉ (g18.take 17 ++ [0x42, 0x0A]).take 18 ∧
      hexDecode (((g18.take 17 ++ [0x42, 0x0A]).take 18).drop 4) = none) ∧
    ([0x2A, 0x2A, 0x18, 0x42, 0x0A] : List Byte)[4]? = some 0x0A := by decide
theorem witness_HexHeaderOutcomes :
    startKind (g18 ++ [0x0A]) = .hex ∧ (g18 ++ [0x0A])[18]? = some 0x0A ∧ 0x0A ∉ (g18 ++ [0x0A]).take 18 ∧
    hexDecode (((g18 ++ [0x0A]).take 18).drop 4) = some [9, 0, 4, 0, 0, 0x74, 0xBC] ∧
    (g18 ++ [0x0D, 0x0A])[19]? = some 0x0A ∧ (g18 ++ [0x0D, 0x0A])[18]? = some 0x0D ∧
    0x0A ∉ (g18 ++ [0x0D, 0x0A]).take 19 := by decide
theorem witness_SubpacketsSent :
    (0x3404 : CommandWord).extractLsb' 8 8 = 0x34#8 ∧ (0x3404 : CommandWord).extractLsb' 2 6 ≠ 0#6 ∧
    (0x35FF : CommandWord).extractLsb' 8 8 = 0x35#8 ∧ (0x35FF : CommandWord).extractLsb' 2 6 ≠ 0#6 := by decide
/-- Markers at both ends of the terminator range, at index 0 and after another ZDLE; none for 0x67 and 0x6C. -/
theorem witness_ScanCommandRuns :
    scanTerm [0x18, 0x68] = some 0 ∧ scanTerm [0x18, 0x18, 0x6B] = some 1 ∧ scanTerm [0x18, 0x67] = none ∧
    scanTerm [0x18, 0x6C] = none ∧ scanTerm [0x68, 0x18] = none ∧
    (after .rxScan (rx [0x18, 0x18, 0x6B])).subt = 0x6B := by decide
theorem witness_Subpacket16Outcomes :
    scanTerm (hello ++ [0x18]) = none ∧ scanTerm (hello ++ [0x18, 0x68, 0x66]) = some 5 ∧
    splice 2 ((hello ++ [0x18, 0x68, 0x66]).drop 7) = none ∧ scanTerm [0x18, 0x18, 0x68, 0, 0] = some 1 ∧
    splice 2 [0, 0] = some ([0, 0], 2) ∧ zdecode [0x18] = none ∧
    zdecode (([0x41, 0x18, 0x68, 0, 0] : List Byte).take 1) = some [0x41] ∧
    ([0x41, 0x18, 0x68, 0, 0] : List Byte)[2]? = some 0x68 := by decide
theorem witness_Subpacket32Outcomes :
    scanTerm [] = none ∧ scanTerm [0x18, 0x6B, 1, 2, 3] = some 0 ∧ splice 4 [1, 2, 3] = none ∧
    scanTerm [0x18, 0x18, 0x6B, 0, 0, 0, 0] = some 1 ∧ splice 4 [0, 0, 0, 0] = some ([0, 0, 0, 0], 4) ∧
    scanTerm [0x18, 0x6B, 0x5D, 0x57, 0x62, 0x08] = some 0 ∧
    splice 4 [0x5D, 0x57, 0x62, 0x08] = some ([0x5D, 0x57, 0x62, 0x08], 4) := by decide
theorem witness_WireRowsRun :
    (∀ cap, { State.reset with params := ⟨none, some 4⟩ }.params.rxbufCap = some cap → 0 + 4 ≤ cap) ∧
    (0x5F : Byte) &&& 0x60 = 0x40 ∧ (0xC0 : Byte) &&& 0x60 = 0x40 := by
  refine ⟨?_, by decide, by decide⟩
  intro cap h; cases h; exact Nat.le_refl 4
theorem witness_StepRunsTheDecodedInstruction :
    { ib [] with pending := [.present (.word 0x0941)] }.pending = .present (.word 0x0941) :: [] ∧
    decode (.word 0x0941) = .ok (.ibPush 0x41) ∧ decode (.wire [0x0A]) = .ok .wireEol2 ∧
    illegalWord 0x0941 = false := by decide
theorem witness_StepWithoutAnInstruction :
    State.reset.pending = [] ∧ { ib [1] with pending := [.resetInput] }.pending = .resetInput :: [] ∧
    { ib [] with pending := [.present (.wire [0x41, 0x11])] }.pending = .present (.wire [0x41, 0x11]) :: [] ∧
    decodeWire [0x41, 0x11] = none := by decide
theorem witness_DecodeEncodeAgree :
    (Instr.rxSplice 0xFF).wellFormed = true ∧ (Instr.txHex 2).wellFormed = true ∧
    (Instr.illegal 0x3003).wellFormed = true ∧ (Instr.wireEsc 0x40).wellFormed = true := by decide
theorem witness_WirePatternsAreUnambiguous : decodeWire [0x18, 0x6B] = some (.wireTerm 3) := by decide
theorem witness_OutcomesAreInTheMatrix :
    exec (.ibPush 1) small = .next { small with status := 0x87 } ∧ (Instr.ibPush 1).wellFormed = true := by
  constructor <;> rfl
/-- A refusal, an E_CRC of VFY16, an E_CRC and an E_BADESC of RX.SUB16. -/
theorem witness_FailureChangesOnlyStatus :
    exec .unpack16 (ib [1]) = .next { ib [1] with status := 0x88 } ∧
    (after .vfy16 (ib [0, 1])).status = 0x82 ∧ (after .rxSub16 (rx [0x18, 0x68, 0, 0])).status = 0x82 ∧
    (after .rxSub16 (rx [0x18, 0x18, 0x68, 0, 0])).status = 0x86 := by
  refine ⟨rfl, ?_⟩; decide +kernel
theorem witness_OperandRegisterFrame :
    exec .zenc (ib [0x40]) = .next { ib [0x40] with obuf := [0x40], lastcode := 0x40 } ∧
    mayWriteArg .zenc = false ∧ mayWriteHdr .zenc = false ∧ mayWriteCfg .zenc = false ∧
    mayWriteLastcode .zdec = false := ⟨rfl, rfl, rfl, rfl, rfl⟩
theorem witness_ResultRegisterFrame :
    exec .rxHdr (rx [0x41]) = .next { rx [0x41] with status := 0x85 } ∧ Instr.rxHdr ≠ .rst ∧
    exec .rxScan (rx []) = .next { rx [] with status := 0x01 } := by
  exact ⟨rfl, by decide, rfl⟩
theorem witness_BufferFrame :
    exec .rxTrim (rx [0x41]) = .next { rx [] with obuf := [0x41] } ∧ consumesRxbuf .rxTrim = true ∧
    exec (.rxPush 0x41) (rx []) = .next (rx [0x41]) ∧ appendsRxbuf (.rxPush 0x41) = true ∧
    exec .pack16 (ar 0x10000) = .next { ar 0x10000 with status := 0x81 } ∧ mayWriteIbuf .pack16 = false ∧
    transmits .pack16 = false := by
  exact ⟨rfl, rfl, rfl, rfl, rfl, rfl, rfl⟩
theorem witness_ModelFieldsFrame :
    exec .rst small = .next { State.reset with params := small.params } ∧
    { ib [1] with pending := [.present (.word 0x0942)] }.pending = .present (.word 0x0942) :: [] ∧
    blockStep Config.Params.default (ib [1]).toBlock 0x0942 = .next (ib [1, 0x42]).toBlock := ⟨rfl, rfl, rfl⟩
theorem witness_ReceiversIgnoreTheEncoder :
    exec .zdec (ib [0x18, 0x58]) = .next { ib [0x18, 0x58] with obuf := [0x18] } ∧
    appendsRxbuf .wireEol2 = true ∧ consumesRxbuf (.rxSplice 0) = true := by
  exact ⟨rfl, rfl, rfl⟩
/-- A state with finite capacities at their minimum, and a step of it. -/
theorem witness_StepKeepsCapacities :
    { ib [1, 2] with params := ⟨some 8192, some 16394⟩, pending := [.present (.word 0x1400)] }.withinCapacities ∧
    step { ib [1, 2] with params := ⟨some 8192, some 16394⟩, pending := [.present (.word 0x1400)] } =
      .next { ib [1, 2] with
        params := ⟨some 8192, some 16394⟩, pending := [], obuf := [0x30, 0x31, 0x30, 0x32] } := by
  exact ⟨by decide, rfl⟩
theorem witness_StepKeepsRxbufFiltered :
    { rx [0x41] with pending := [.present (.word 0x4011)] }.rxbufFiltered ∧
    step { rx [0x41] with pending := [.present (.word 0x4011)] } = .next (rx [0x41]) := by
  exact ⟨by decide, rfl⟩
theorem witness_StepKeepsStatusRegistersLegal :
    { rx [0x18, 0x6B] with pending := [.present (.word 0x4600)] }.statusRegistersLegal ∧
    step { rx [0x18, 0x6B] with pending := [.present (.word 0x4600)] } =
      .next { rx [0x18, 0x6B] with subt := 0x6B } := by
  exact ⟨by decide, rfl⟩
theorem witness_PackRoundTrips :
    (ar 0xFFFF).params.wellFormed = true ∧ (ar 0xFFFF).arg.toNat ≤ 0xFFFF ∧
    { ar 0 with params := ⟨some 8192, some 16394⟩ }.params.wellFormed = true := by decide
theorem witness_HexRoundTrips : hexDecode [0x30, 0x61] = some [0x0A] := by decide
theorem witness_EscapedStreamGuarantees :
    (zencode true false 0 [0x11, 0x41]).1[0]? = some zdle ∧ 0x41 ∈ (zencode true false 0 [0x11, 0x41]).1 ∧
    (0x18 : Byte) ∈ (zencode true false 0 [0x11, 0x41]).1 ∧ (0x18 : Byte) &&& 0x60 = 0 := by decide
theorem witness_SpliceLaws :
    splice 2 [0x41, 0x18, 0x58, 0x42] = some ([0x41, 0x18], 3) ∧ splice 1 [0x18] = none ∧ 1 < 2 := by decide
theorem witness_TrimLaws :
    0 < (trim [0x48, 0x2A]).1.length ∧ trim [0x48, 0x2A] = ([0x48], [0x2A]) := by decide
theorem witness_HexHeaderRoundTrip :
    (2 : BitVec 2) ≠ 3 ∧ (hd 11 1 2 3 4).hdr.b0.toNat ≤ 11 ∧ (hd 11 1 2 3 4).params.wellFormed = true := by decide
theorem witness_BinaryHeaderRoundTrip :
    (hd 0 0x18 0x11 0x40 0x0D).hdr.b0.toNat ≤ 11 ∧
    { hd 11 0 0 0 0 with params := ⟨some 8192, some 16394⟩ }.params.wellFormed = true := by decide
theorem witness_ParsingIgnoresChunking :
    exec (.rxSplice 1) (rx [0x18]) = .next { rx [0x18] with status := 0x01 } ∧
    exec (.rxSplice 1) (rx [0x41]) = .next { rx [] with obuf := [0x41] } ∧
    exec .rxHdr (rx [0x41]) = .next { rx [0x41] with status := 0x85 } := by
  exact ⟨rfl, rfl, rfl⟩
theorem witness_PseudoInstructionsRun :
    (∀ cap, { State.reset with params := ⟨some 2, none⟩ }.params.ibufCap = some cap →
      ([0x41, 0x11] : List Byte).length ≤ cap) ∧
    execAll (expand State.reset (.ibLoad [0x41, 0x11])) State.reset = .next (ib [0x41, 0x11]) := by
  refine ⟨?_, rfl⟩
  intro cap h; cases h; exact Nat.le_refl 2

end Sys2Proof.Tests
end

namespace Sys2Proof.Machine

/-! ### Lengths of the results -/

theorem encodeByte_length_le (e t : Bool) (last c : Byte) : (encodeByte e t last c).length ≤ 2 := by
  unfold encodeByte; split <;> simp

/-- R176: an encoded stream is at most twice as long as its source. -/
theorem zencode_length_le (e t : Bool) (last : Byte) (s : List Byte) :
    (zencode e t last s).1.length ≤ 2 * s.length := by
  induction s generalizing last with
  | nil => simp
  | cons c s ih =>
    have hc := encodeByte_length_le e t last c
    have hs := ih c
    simp only [zencode_cons, List.length_append, List.length_cons]
    omega

/-- Decoding never lengthens a stream. -/
theorem zdecode_length_le {raw out : List Byte} (h : zdecode raw = some out) :
    out.length ≤ raw.length := by
  induction raw using zdecode.induct generalizing out with
  | case1 => simp_all
  | case2 => simp [zdecode] at h
  | case3 b hb => simp_all [zdecode]
  | case4 f raw ih =>
    rw [zdecode_pair] at h
    obtain ⟨p, hp, rfl⟩ := Option.map_eq_some_iff.mp h
    have := ih hp
    simp only [List.length_cons]; omega
  | case5 b f raw hb ih =>
    rw [zdecode_literal hb] at h
    obtain ⟨p, hp, rfl⟩ := Option.map_eq_some_iff.mp h
    simpa using ih hp

/-- Decoding digits never lengthens the sequence. -/
theorem hexDecode_length_le {h out : List Byte} (hd : hexDecode h = some out) :
    out.length ≤ h.length := by
  induction h using hexDecode.induct generalizing out with
  | case1 => simp_all [hexDecode]
  | case2 => simp [hexDecode] at hd
  | case3 c d h x y rest hr hy hx ih =>
    simp only [hexDecode, hx, hy, hr, Option.some.injEq] at hd
    subst hd
    have := ih hr
    simp only [List.length_cons]; omega
  | case4 c d h hn ih =>
    unfold hexDecode at hd
    split at hd
    next hx hy hr => exact (hn _ _ _ hx hy hr).elim
    next => cases hd

/-- R204: garbage and rest are the buffer. -/
theorem trim_append (buf : List Byte) : (trim buf).1 ++ (trim buf).2 = buf := by
  induction buf with
  | nil => rfl
  | cons b s ih => rw [trim_cons]; split <;> simp [ih]

theorem packU16be_length {v : Nat} {r : List Byte} (h : packU16be v = some r) : r.length = 2 := by
  unfold packU16be at h
  split at h <;> cases h
  rfl

/-! ### Capacities -/

theorem fits_of_le {m n : Nat} {cap : Option Nat} (hmn : m ≤ n) (hn : Config.fits n cap = true) :
    Config.fits m cap = true := by
  cases cap with
  | none => rfl
  | some c => simp only [Config.fits, decide_eq_true_eq] at hn ⊢; omega

theorem fits_zero (cap : Option Nat) : Config.fits 0 cap = true := by cases cap <;> simp [Config.fits]

/-- A buffer within its capacity and not full takes one byte more. -/
theorem fits_succ {n : Nat} {cap : Option Nat} (hn : Config.fits n cap = true) (hfull : cap ≠ some n) :
    Config.fits (n + 1) cap = true := by
  cases cap with
  | none => rfl
  | some c =>
    simp only [Config.fits, decide_eq_true_eq, ne_eq, Option.some.injEq] at hn hfull ⊢
    omega

theorem fits_of_not_exceeds {n : Nat} {cap : Option Nat} (h : ¬ exceeds n cap = true) :
    Config.fits n cap = true := by
  cases cap with
  | none => rfl
  | some c => simpa [Config.fits, exceeds] using h

/-- The results R7 sizes OBUF for: short ones, twice the operand, the received bytes. -/
def ResultFits (s : State) (v : List Byte) : Prop :=
  v.length ≤ 255 ∨ v.length ≤ 2 * s.ibuf.length ∨ v.length ≤ s.rxbuf.length

theorem ResultFits.of_length_eq {s : State} {v : List Byte} {n : Nat} (hv : v.length = n)
    (hn : n ≤ 255) : ResultFits s v := .inl (hv.le.trans hn)

theorem ResultFits.of_length_le_ibuf {s : State} {v : List Byte} (hv : v.length ≤ s.ibuf.length) :
    ResultFits s v := .inr (.inl (by omega))

/-- R7: `max(2 * IBUF_CAP, RXBUF_CAP)` has room for every result. -/
theorem ResultFits.fits_obufCap {s : State} {v : List Byte} (hv : ResultFits s v)
    (hs : s.withinCapacities) : Config.fits v.length s.params.obufCap = true := by
  obtain ⟨hwf, hi, hr, -⟩ := hs
  unfold ResultFits at hv
  unfold Config.Params.obufCap
  cases hci : s.params.ibufCap with
  | none => rfl
  | some ci =>
    cases hcr : s.params.rxbufCap with
    | none => rfl
    | some cr =>
      simp only [Config.Params.wellFormed, Config.fits, hci, hcr, Bool.and_eq_true,
        decide_eq_true_eq] at hwf hi hr ⊢
      omega

/-! ### What every operation keeps -/

/-- From `s` to `t` the parameters and the coming inputs are as they were (R21, log 1, log 2), and buffers within
their capacities are still within them (R7, R60). -/
structure KeepsBounds (s t : State) : Prop where
  params : t.params = s.params
  pending : t.pending = s.pending
  capacities : s.withinCapacities → t.withinCapacities

namespace KeepsBounds

variable {s t u : State}

theorem refl (s : State) : KeepsBounds s s := ⟨rfl, rfl, id⟩

theorem trans (h : KeepsBounds s t) (h' : KeepsBounds t u) : KeepsBounds s u :=
  ⟨h'.params.trans h.params, h'.pending.trans h.pending, h'.capacities ∘ h.capacities⟩

/-- The registers and TXOUT are outside the bounds. -/
theorem of_buffers_eq (hp : t.params = s.params) (hq : t.pending = s.pending)
    (hi : t.ibuf = s.ibuf) (hr : t.rxbuf = s.rxbuf) (ho : t.obuf = s.obuf) : KeepsBounds s t :=
  ⟨hp, hq, fun hs => by rwa [State.withinCapacities, hp, hi, hr, ho]⟩

theorem finish (h : KeepsBounds s t) (c : StatusCode) : KeepsBounds s (t.finish c) :=
  h.trans (of_buffers_eq rfl rfl rfl rfl rfl)

theorem raiseCrc (h : KeepsBounds s t) (w : CrcWidth) (expected received : List Byte) :
    KeepsBounds s (t.raiseCrc w expected received) :=
  h.trans (of_buffers_eq rfl rfl rfl rfl rfl)

theorem setArg (h : KeepsBounds s t) (v : BitVec 32) : KeepsBounds s (t.setArg v) :=
  h.trans (of_buffers_eq rfl rfl rfl rfl rfl)

theorem setLastcode (h : KeepsBounds s t) (v : Byte) : KeepsBounds s (t.setLastcode v) :=
  h.trans (of_buffers_eq rfl rfl rfl rfl rfl)

theorem setSubt (h : KeepsBounds s t) (v : Byte) : KeepsBounds s (t.setSubt v) :=
  h.trans (of_buffers_eq rfl rfl rfl rfl rfl)

theorem setParsedHeader (h : KeepsBounds s t) (v : Header) (f : BitVec 2) :
    KeepsBounds s (t.setParsedHeader v f) :=
  h.trans (of_buffers_eq rfl rfl rfl rfl rfl)

theorem setIbuf {v : List Byte}
    (hv : Config.fits s.ibuf.length s.params.ibufCap = true → Config.fits v.length s.params.ibufCap = true) :
    KeepsBounds s (s.setIbuf v) :=
  ⟨rfl, rfl, fun ⟨hwf, hi, hr, ho⟩ => ⟨hwf, hv hi, hr, ho⟩⟩

theorem setObuf {v : List Byte} (hv : ResultFits s v) : KeepsBounds s (s.setObuf v) where
  params := rfl
  pending := rfl
  capacities hs := by
    have ho := hv.fits_obufCap hs
    obtain ⟨hwf, hi, hr, -⟩ := hs
    exact ⟨hwf, hi, hr, ho⟩

theorem setRxbuf {v : List Byte}
    (hv : Config.fits s.rxbuf.length s.params.rxbufCap = true → Config.fits v.length s.params.rxbufCap = true) :
    KeepsBounds s (s.setRxbuf v) :=
  ⟨rfl, rfl, fun ⟨hwf, hi, hr, ho⟩ => ⟨hwf, hi, hv hr, ho⟩⟩

theorem setRxbuf_of_length_le {v : List Byte} (hv : v.length ≤ s.rxbuf.length) :
    KeepsBounds s (s.setRxbuf v) := setRxbuf (fits_of_le hv)

theorem consume (s : State) (k : Nat) : KeepsBounds s (s.setRxbuf (s.rxbuf.drop k)) :=
  setRxbuf_of_length_le (by simp)

theorem resetBlock (s : State) : KeepsBounds s s.resetBlock :=
  ⟨rfl, rfl, fun ⟨hwf, _⟩ => ⟨hwf, fits_zero _, fits_zero _, fits_zero _⟩⟩

/-- Bytes go from the front of RXBUF and a result goes to OBUF. -/
theorem setObuf_setRxbuf {v r : List Byte} (hv : ResultFits s v) (hr : r.length ≤ s.rxbuf.length) :
    KeepsBounds s ((s.setObuf v).setRxbuf r) :=
  (setObuf hv).trans (setRxbuf_of_length_le hr)

theorem append (b : Byte) (hcap : s.params.rxbufCap ≠ some s.rxbuf.length) :
    KeepsBounds s (s.setRxbuf (s.rxbuf ++ [b])) := by
  refine setRxbuf fun hr => ?_
  rw [List.length_append]
  exact fits_succ hr hcap

theorem pushReceived (b : Byte) (s : State) : KeepsBounds s (pushReceived b s) := by
  rcases pushReceived_cases b s with ⟨-, h⟩ | ⟨-, -, h⟩ | ⟨-, hcap, h⟩ <;> rw [h]
  · exact (refl s).finish _
  · exact (refl s).finish _
  · exact (append b hcap).finish _

theorem feed (bytes : List Byte) (s : State) : KeepsBounds s (feed bytes s) := by
  induction bytes generalizing s with
  | nil => exact refl s
  | cons b bytes ih => exact (pushReceived b s).trans (ih _)

end KeepsBounds

/-! ### How a command ends -/

/-- The ways a command ends (R13, R264): a code in STATUS and nothing else; OK, with the bounds kept; a frame error
that takes the frame off RXBUF; or E_CRC with its diagnostic registers, after a frame or after none. -/
inductive Ending (i : Instr) (s : State) : Outcome → Prop
  | statusOnly (c : StatusCode) : Ending i s (.next (s.finish c))
  | finished {t : State} (h : KeepsBounds s t) : Ending i s (.next (t.finish .ok))
  | badFrame (used : Nat) (e : StatusCode) (hi : parsesFrame i = true)
      (he : e = .eUnsupported ∨ e = .eHexfmt ∨ e = .eBadesc) :
      Ending i s (.next ((s.setRxbuf (s.rxbuf.drop used)).finish e))
  | badCrc (used : Nat) (w : CrcWidth) (expected received : List Byte) (hi : mayRaiseCrc i = true)
      (hu : parsesFrame i = true ∨ used = 0) :
      Ending i s (.next ((s.setRxbuf (s.rxbuf.drop used)).raiseCrc w expected received))

/-- A command that writes registers or TXOUT only. -/
theorem Ending.registers {i : Instr} {s t : State} (hp : t.params = s.params) (hq : t.pending = s.pending)
    (hi : t.ibuf = s.ibuf) (hr : t.rxbuf = s.rxbuf) (ho : t.obuf = s.obuf) :
    Ending i s (.next (t.finish .ok)) :=
  .finished (.of_buffers_eq hp hq hi hr ho)

theorem Ending.isNext {i : Instr} {s : State} {o : Outcome} (h : Ending i s o) : ∃ t, o = .next t := by
  cases h <;> exact ⟨_, rfl⟩

theorem Ending.keepsBounds {i : Instr} {s t : State} (h : Ending i s (.next t)) : KeepsBounds s t := by
  cases h with
  | statusOnly c => exact (KeepsBounds.refl s).finish c
  | finished h => exact h.finish _
  | badFrame used e => exact (KeepsBounds.consume s used).finish e
  | badCrc used w x g => exact (KeepsBounds.consume s used).raiseCrc w x g

theorem verifyTail_ending {i : Instr} (hi : mayRaiseCrc i = true) (w : CrcWidth) (s : State) :
    Ending i s (verifyTail w s) := by
  rcases verifyTail_cases w s with ⟨-, h⟩ | ⟨data, got, -, -, ⟨-, h⟩ | ⟨-, h⟩⟩ <;> rw [h]
  · exact .statusOnly _
  · exact .statusOnly _
  · exact .badCrc 0 w _ _ hi (.inr rfl)

theorem acceptHeader_ending (k : StartKind) (w : CrcWidth) (l : List Byte) (used : Nat) (s : State) :
    Ending .rxHdr s (acceptHeader k w l (s.setRxbuf (s.rxbuf.drop used))) := by
  rcases acceptHeader_cases k w l (s.setRxbuf (s.rxbuf.drop used)) with ⟨-, h⟩ | ⟨-, -, h⟩ | ⟨-, -, h⟩ <;>
    rw [h]
  · exact .badCrc used w _ _ rfl (.inl rfl)
  · exact .badFrame used _ rfl (.inl rfl)
  · exact .finished ((KeepsBounds.consume s used).setParsedHeader _ _)

theorem takeHeader_ending (k : StartKind) (w : CrcWidth) (x : HeaderSection) (s : State) :
    Ending .rxHdr s (takeHeader k w x s) := by
  rcases takeHeader_cases k w x s with ⟨-, h⟩ | ⟨used, -, h⟩ | ⟨l, used, -, h⟩ <;> rw [h]
  · exact .statusOnly _
  · exact .badFrame used _ rfl (.inr (.inl rfl))
  · exact acceptHeader_ending k w l used s

theorem execRxHdr_ending (s : State) : Ending .rxHdr s (execRxHdr s) := by
  rcases execRxHdr_cases s with ⟨-, h⟩ | ⟨-, h⟩ | ⟨-, h⟩ | ⟨-, h⟩ | ⟨-, -, h⟩ <;> rw [h]
  · exact takeHeader_ending _ _ _ s
  · exact takeHeader_ending _ _ _ s
  · exact takeHeader_ending _ _ _ s
  · exact .statusOnly _
  · exact .statusOnly _

theorem acceptSub_ending {i : Instr} (hc : mayRaiseCrc i = true) (hf : parsesFrame i = true) (w : CrcWidth)
    (t : Byte) (got : List Byte) {raw : List Byte} (used : Nat) {s : State}
    (hraw : raw.length ≤ s.rxbuf.length) :
    Ending i s (acceptSub w raw t got (s.setRxbuf (s.rxbuf.drop used))) := by
  rcases acceptSub_cases w raw t got (s.setRxbuf (s.rxbuf.drop used)) with
    ⟨-, h⟩ | ⟨p, hp, ⟨-, h⟩ | ⟨-, h⟩⟩ <;> rw [h]
  · exact .badFrame used _ hf (.inr (.inr rfl))
  · exact .badCrc used w _ _ hc (.inl hf)
  · have hfits : ResultFits s p := .inr (.inr ((zdecode_length_le hp).trans hraw))
    exact .finished ((KeepsBounds.setObuf_setRxbuf hfits (by simp)).setSubt t)

theorem takeSub_ending {i : Instr} (hc : mayRaiseCrc i = true) (hf : parsesFrame i = true) (w : CrcWidth)
    (s : State) : Ending i s (takeSub w s) := by
  rcases takeSub_cases w s with ⟨-, h⟩ | ⟨n, got, u, -, -, h⟩ <;> rw [h]
  · exact .statusOnly _
  · exact acceptSub_ending hc hf w _ got _ (by simp)

theorem execIbPush_ending (b : Byte) (s : State) : Ending (.ibPush b) s (execIbPush b s) := by
  unfold execIbPush isFull
  split
  · exact .statusOnly _
  · refine .finished (.setIbuf fun hi => ?_)
    rw [List.length_append]
    exact fits_succ hi (by simp_all)

theorem execIbLdob_ending (s : State) : Ending .ibLdob s (execIbLdob s) := by
  unfold execIbLdob
  split
  · exact .statusOnly _
  · exact .finished (.setIbuf fun _ => fits_of_not_exceeds ‹_›)

theorem execRxPush_ending (b : Byte) (s : State) : Ending (.rxPush b) s (execRxPush b s) := by
  unfold execRxPush
  rcases pushReceived_cases b s with ⟨-, h⟩ | ⟨-, -, h⟩ | ⟨-, hcap, h⟩ <;> rw [h]
  · exact .statusOnly _
  · exact .statusOnly _
  · exact .finished (.append b hcap)

theorem execRxTrim_ending (s : State) : Ending .rxTrim s (execRxTrim s) := by
  have hlen := congrArg List.length (trim_append s.rxbuf)
  rw [List.length_append] at hlen
  have hfits : ResultFits s (trim s.rxbuf).1 := .inr (.inr (by omega))
  have hrest : (trim s.rxbuf).2.length ≤ s.rxbuf.length := by omega
  exact .finished ((KeepsBounds.setObuf_setRxbuf hfits hrest).setArg _)

theorem execRxSplice_ending (n : Byte) (s : State) : Ending (.rxSplice n) s (execRxSplice n s) := by
  unfold execRxSplice
  cases h : splice (spliceCount n) s.rxbuf with
  | none => exact .statusOnly _
  | some r =>
    have hlen : r.1.length = n.toNat := splice_length h
    have hfits : ResultFits s r.1 := .inl (by omega)
    exact .finished (.setObuf_setRxbuf hfits (by simp))

theorem execRxScan_ending (s : State) : Ending .rxScan s (execRxScan s) := by
  unfold execRxScan
  cases scanTerm s.rxbuf with
  | none => exact .statusOnly _
  | some n => exact .registers rfl rfl rfl rfl rfl

theorem execTxHex_ending (sel : BitVec 2) (s : State) : Ending (.txHex sel) s (execTxHex sel s) := by
  unfold execTxHex
  cases serHex s.hdr.bytes sel with
  | none => exact .statusOnly _
  | some frame => exact .registers rfl rfl rfl rfl rfl

theorem execPack16_ending (s : State) : Ending .pack16 s (execPack16 s) := by
  unfold execPack16
  cases h : packU16be s.arg.toNat with
  | none => exact .statusOnly _
  | some v => exact .finished (.setObuf (.of_length_eq (packU16be_length h) (by decide)))

theorem execHexDec_ending (s : State) : Ending .hexDec s (execHexDec s) := by
  unfold execHexDec
  cases h : hexDecode s.ibuf with
  | none => exact .statusOnly _
  | some v => exact .finished (.setObuf (.of_length_le_ibuf (hexDecode_length_le h)))

theorem execZdec_ending (s : State) : Ending .zdec s (execZdec s) := by
  unfold execZdec
  cases h : zdecode s.ibuf with
  | none => exact .statusOnly _
  | some v => exact .finished (.setObuf (.of_length_le_ibuf (zdecode_length_le h)))

theorem execUnpack16_ending (s : State) : Ending .unpack16 s (execUnpack16 s) := by
  unfold execUnpack16
  cases unpackU16be s.ibuf with
  | none => exact .statusOnly _
  | some v => exact .registers rfl rfl rfl rfl rfl

theorem execUnpack32_ending (s : State) : Ending .unpack32 s (execUnpack32 s) := by
  unfold execUnpack32
  cases unpackU32le s.ibuf with
  | none => exact .statusOnly _
  | some v => exact .registers rfl rfl rfl rfl rfl

/-- Each of the 42 commands ends in one of the ways of `Ending`. -/
theorem exec_ending {i : Instr} (hi : i.isCommand = true) (s : State) : Ending i s (exec i s) := by
  cases i with
  | nop => exact .statusOnly .ok
  | rst => exact .finished (.resetBlock s)
  | cfg | zencRst | argSet0 | argSet1 | argSet2 | argSet3 | zcls | hdrSet0 | hdrSet1 | hdrSet2 | hdrSet3
  | hdrSet4 | txBin16 | txBin32 | txSub16 | txSub32 => exact .registers rfl rfl rfl rfl rfl
  | ibClr => exact .finished (.setIbuf fun _ => fits_zero _)
  | ibPush b => exact execIbPush_ending b s
  | ibLdob => exact execIbLdob_ending s
  | pack16 => exact execPack16_ending s
  | unpack16 => exact execUnpack16_ending s
  | pack32 => exact .finished (.setObuf (.of_length_eq (packU32le_length s.arg) (by decide)))
  | unpack32 => exact execUnpack32_ending s
  | hexEnc => exact .finished (.setObuf (.inr (.inl (hexEncode_length s.ibuf).le)))
  | hexDec => exact execHexDec_ending s
  | crc16 =>
    have hfits : ResultFits s (crc16 s.ibuf) := .of_length_eq (crcOf_length .w16 s.ibuf) (by decide)
    exact .finished ((KeepsBounds.setObuf hfits).setArg _)
  | crc32 =>
    have hfits : ResultFits s (crc32 s.ibuf) := .of_length_eq (crcOf_length .w32 s.ibuf) (by decide)
    exact .finished ((KeepsBounds.setObuf hfits).setArg _)
  | vfy16 => exact verifyTail_ending rfl .w16 s
  | vfy32 => exact verifyTail_ending rfl .w32 s
  | zenc =>
    exact .finished ((KeepsBounds.setObuf (.inr (.inl (zencode_length_le ..)))).setLastcode _)
  | zdec => exact execZdec_ending s
  | txHex sel => exact execTxHex_ending sel s
  | rxPush b => exact execRxPush_ending b s
  | rxClr => exact .finished (.setRxbuf fun _ => fits_zero _)
  | rxTrim => exact execRxTrim_ending s
  | rxHdr => exact execRxHdr_ending s
  | rxSub16 => exact takeSub_ending rfl rfl .w16 s
  | rxSub32 => exact takeSub_ending rfl rfl .w32 s
  | rxScan => exact execRxScan_ending s
  | rxSplice n => exact execRxSplice_ending n s
  | illegal | wirePfxHex | wirePfxBin16 | wirePfxBin32 | wireEol0 | wireEol1 | wireEol2 | wireTerm
  | wireEsc => cases hi

/-- An instruction that is no command is an illegal word or bytes that arrive (R90, log 3). -/
theorem exec_of_not_command {i : Instr} (hi : i.isCommand = false) (s : State) :
    exec i s = .next (s.finish .eIllegal) ∨ ∃ bytes, exec i s = .next (feed bytes s) := by
  cases i with
  | illegal cw => exact .inl rfl
  | wirePfxHex | wirePfxBin16 | wirePfxBin32 | wireEol0 | wireEol1 | wireEol2 | wireTerm | wireEsc =>
    exact .inr ⟨_, rfl⟩
  | _ => cases hi

theorem exec_isNext (i : Instr) (s : State) : ∃ t, exec i s = .next t := by
  cases hi : i.isCommand with
  | true => exact (exec_ending hi s).isNext
  | false => rcases exec_of_not_command hi s with h | ⟨bytes, h⟩ <;> exact ⟨_, h⟩

theorem exec_keepsBounds {i : Instr} {s t : State} (h : exec i s = .next t) : KeepsBounds s t := by
  cases hi : i.isCommand with
  | true => exact (h ▸ exec_ending hi s).keepsBounds
  | false =>
    rcases exec_of_not_command hi s with he | ⟨bytes, he⟩ <;> cases h.symm.trans he
    · exact (KeepsBounds.refl s).finish _
    · exact .feed bytes s

/-! ### What a step runs -/

/-- A step idles, resets, runs an instruction or feeds bytes, on the state with its action taken (log 1). -/
theorem step_cases (s : State) :
    (s.pending = [] ∧ step s = .next s) ∨
    (∃ rest, s.pending = .resetInput :: rest ∧ step s = .next (s.withPending rest).resetBlock) ∨
    (∃ c i rest, s.pending = .present c :: rest ∧ decode c = .ok i ∧
      step s = exec i (s.withPending rest)) ∨
    (∃ bytes rest, s.pending = .present (.wire bytes) :: rest ∧ decodeWire bytes = none ∧
      step s = .next (feed bytes (s.withPending rest))) := by
  unfold step
  rcases s.pending with _ | ⟨c | _, rest⟩
  · simp
  · cases c with
    | word cw => simp [decode]
    | wire bytes => cases h : decodeWire bytes <;> simp [decode, h, feedUnrecognised]
  · simp

/-- R71: a command word presented is run as it decodes. -/
theorem step_present_word {s : State} {cw : CommandWord} {rest : List HostAction}
    (h : s.pending = .present (.word cw) :: rest) :
    step s = exec (decodeCommand cw) (s.withPending rest) := by
  unfold step; rw [h]; rfl

theorem step_isNext (s : State) : ∃ t, step s = .next t := by
  rcases step_cases s with ⟨-, h⟩ | ⟨rest, -, h⟩ | ⟨c, i, rest, -, -, h⟩ | ⟨bytes, rest, -, -, h⟩ <;> rw [h]
  · exact ⟨_, rfl⟩
  · exact ⟨_, rfl⟩
  · exact exec_isNext i _
  · exact ⟨_, rfl⟩

/-- A step keeps the bounds from the state with its action taken. -/
theorem step_keepsBounds {s t : State} (h : step s = .next t) :
    ∃ rest, KeepsBounds (s.withPending rest) t := by
  rcases step_cases s with ⟨-, h'⟩ | ⟨rest, -, h'⟩ | ⟨c, i, rest, -, -, h'⟩ | ⟨bytes, rest, -, -, h'⟩ <;>
    rw [h'] at h
  · cases h; exact ⟨s.pending, .refl s⟩
  · cases h; exact ⟨rest, .resetBlock _⟩
  · exact ⟨rest, exec_keepsBounds h⟩
  · cases h; exact ⟨rest, .feed bytes _⟩

/-! ### The coming inputs are not read -/

/-- The next state an outcome holds, with other inputs to come. -/
def outcomeWithPending (l : List HostAction) : Outcome → Outcome
  | .next t => .next (t.withPending l)
  | .fault r => .fault r
  | .refused r => .refused r

@[simp] theorem outcomeWithPending_next (l : List HostAction) (t : State) :
    outcomeWithPending l (.next t) = .next (t.withPending l) := rfl

section
variable (s : State) (l : List HostAction)

theorem pushReceived_withPending (b : Byte) :
    pushReceived b (s.withPending l) = (pushReceived b s).withPending l := by
  unfold pushReceived
  rw [apply_ite (State.withPending · l), apply_ite (State.withPending · l)]
  rfl

theorem feed_withPending (bytes : List Byte) :
    feed bytes (s.withPending l) = (feed bytes s).withPending l := by
  induction bytes generalizing s with
  | nil => rfl
  | cons b bytes ih => rw [feed_cons, feed_cons, pushReceived_withPending, ih]

theorem verifyTail_withPending (w : CrcWidth) :
    verifyTail w (s.withPending l) = outcomeWithPending l (verifyTail w s) := by
  unfold verifyTail
  dsimp only [State.withPending_ibuf]
  split
  · rfl
  · split <;> rfl

theorem acceptHeader_withPending (k : StartKind) (w : CrcWidth) (logical : List Byte) :
    acceptHeader k w logical (s.withPending l) = outcomeWithPending l (acceptHeader k w logical s) := by
  unfold acceptHeader
  split
  · rfl
  · split <;> rfl

theorem takeHeader_withPending (k : StartKind) (w : CrcWidth) (x : HeaderSection) :
    takeHeader k w x (s.withPending l) = outcomeWithPending l (takeHeader k w x s) := by
  cases x with
  | incomplete => rfl
  | malformed used => rfl
  | found logical used => exact acceptHeader_withPending (s.consume used) l k w logical

theorem execRxHdr_withPending : execRxHdr (s.withPending l) = outcomeWithPending l (execRxHdr s) := by
  unfold execRxHdr
  dsimp only [State.withPending_rxbuf]
  split
  · exact takeHeader_withPending s l _ _ _
  · exact takeHeader_withPending s l _ _ _
  · exact takeHeader_withPending s l _ _ _
  · rfl
  · rw [apply_ite (outcomeWithPending l)]
    rfl

theorem acceptSub_withPending (w : CrcWidth) (raw : List Byte) (t : Byte) (got : List Byte) :
    acceptSub w raw t got (s.withPending l) = outcomeWithPending l (acceptSub w raw t got s) := by
  unfold acceptSub
  split
  · rfl
  · split <;> rfl

theorem takeSub_withPending (w : CrcWidth) :
    takeSub w (s.withPending l) = outcomeWithPending l (takeSub w s) := by
  unfold takeSub
  dsimp only [State.withPending_rxbuf]
  split
  · rfl
  · split
    · rfl
    · exact acceptSub_withPending (s.consume _) l _ _ _ _

/-- No instruction reads or writes the inputs still to come (R71, log 1). -/
theorem exec_withPending (i : Instr) : exec i (s.withPending l) = outcomeWithPending l (exec i s) := by
  cases i with
  | ibPush | ibLdob =>
    dsimp only [exec, execIbPush, execIbLdob]
    rw [apply_ite (outcomeWithPending l)]
    rfl
  | pack16 | unpack16 | unpack32 | hexDec | zdec | txHex | rxScan | rxSplice =>
    dsimp only [exec, execPack16, execUnpack16, execUnpack32, execHexDec, execZdec, execTxHex, execRxScan,
      execRxSplice, State.withPending_ibuf, State.withPending_rxbuf, State.withPending_arg,
      State.withPending_hdr]
    split <;> rfl
  | vfy16 | vfy32 => exact verifyTail_withPending s l _
  | rxPush b => exact congrArg Host.Outcome.next (pushReceived_withPending s l b)
  | rxHdr => exact execRxHdr_withPending s l
  | rxSub16 | rxSub32 => exact takeSub_withPending s l _
  | wirePfxHex | wirePfxBin16 | wirePfxBin32 | wireEol0 | wireEol1 | wireEol2 | wireTerm | wireEsc =>
    exact congrArg Host.Outcome.next (feed_withPending s l _)
  | _ => rfl

end

/-- What an instruction does is what it does to the block under the parameters (R20, R21). -/
theorem exec_eq_withBlock (i : Instr) (s : State) :
    exec i s = s.withBlock (blockExec s.params i s.toBlock) := by
  obtain ⟨t, ht⟩ := exec_isNext i (s.withPending [])
  have hs : exec i s = .next (t.withPending s.pending) := by
    rw [← outcomeWithPending_next, ← ht]
    exact exec_withPending (s.withPending []) s.pending i
  have hb : blockExec s.params i s.toBlock = blockOutcome (.next (t.withPending s.pending)) := by
    rw [blockOutcome_next, State.withPending_toBlock, ← blockOutcome_next, ← ht]
    rfl
  have hp : (t.withPending s.pending).params = s.params := (exec_keepsBounds ht).params
  rw [hs, hb, State.withBlock_blockOutcome hp rfl]

/-! ### The obligations -/

/-- Settles O34: a command ends in one of the ways of `Ending`, every one a next state. -/
theorem everyInstructionCompletes : Obligations.EveryInstructionCompletes :=
  ⟨exec_isNext, step_isNext⟩

/-- Settles O43: every operation keeps the bounds, and what a step takes from the host is outside them. -/
theorem stepKeepsCapacities : Obligations.StepKeepsCapacities := by
  intro s t hs hstep
  obtain ⟨rest, hk⟩ := step_keepsBounds hstep
  exact hk.capacities hs

/-- Settles O36, by the ways a command ends; the one in OK is excluded by the hypothesis. -/
theorem failureChangesOnlyStatus : Obligations.FailureChangesOnlyStatus := by
  intro i s t hi hexec hne
  have hend : Ending i s (.next t) := hexec ▸ exec_ending hi s
  cases hend with
  | statusOnly c => exact .inl rfl
  | finished h => exact absurd rfl hne
  | badFrame used e hf he =>
    have hcode : e.code = 0x83 ∨ e.code = 0x84 ∨ e.code = 0x86 := by
      rcases he with rfl | rfl | rfl <;> decide
    exact .inr (.inr ⟨hf, hcode, List.drop_suffix used s.rxbuf, rfl⟩)
  | badCrc used w x g hc hu =>
    refine .inr (.inl ⟨hc, rfl, hu.imp_right ?_, List.drop_suffix used s.rxbuf, rfl⟩)
    rintro rfl; rfl

/-- Settles O40: no instruction reads the coming inputs, so the block and the parameters decide. -/
theorem modelFieldsFrame : Obligations.ModelFieldsFrame := by
  refine ⟨exec_eq_withBlock, fun i s t h => ?_, fun s cw rest h => ?_⟩
  · have hk := exec_keepsBounds h
    exact ⟨hk.params, hk.pending⟩
  · rw [step_present_word h]
    exact exec_eq_withBlock (decodeCommand cw) (s.withPending rest)

end Sys2Proof.Machine

namespace Sys2Proof.Machine

/-! ### Values the status registers can take -/

theorem StatusCode.code_mem (c : StatusCode) :
    c.code ∈ ([0x00, 0x01, 0x80, 0x81, 0x82, 0x83, 0x84, 0x85, 0x86, 0x87, 0x88] : List Byte) := by
  cases c <;> decide

theorem mem_subtValues_of_isTerminator {t : Byte} (h : isTerminator t = true) :
    t ∈ ([0x00, 0x68, 0x69, 0x6A, 0x6B] : List Byte) := by
  obtain ⟨k, rfl⟩ := (isTerminator_iff t).mp h
  revert k; decide

/-- R237: the byte after the ZDLE the scan found is a terminator. -/
theorem isTerminator_of_scanTerm {s : List Byte} {n : Nat} (h : scanTerm s = some n) :
    isTerminator (s.getD (n + 1) 0) = true := by
  induction s using scanTerm.induct generalizing n with
  | case1 z t s hm =>
    rw [scanTerm_cons_cons, if_pos hm] at h
    cases h
    exact hm.2
  | case2 z t s hm ih =>
    rw [scanTerm_cons_cons, if_neg hm] at h
    obtain ⟨m, hs, rfl⟩ := Option.map_eq_some_iff.mp h
    exact ih hs
  | case3 s hs =>
    unfold scanTerm at h
    split at h
    next z t r => exact (hs z t r rfl).elim
    next => cases h

/-- Each byte takes two digits. -/
theorem hexDecode_length {h out : List Byte} (hd : hexDecode h = some out) :
    2 * out.length = h.length := by
  induction h using hexDecode.induct generalizing out with
  | case1 => simp_all [hexDecode]
  | case2 => simp [hexDecode] at hd
  | case3 c d h x y rest hr hy hx ih =>
    simp only [hexDecode, hx, hy, hr, Option.some.injEq] at hd
    subst hd
    have := ih hr
    simp only [List.length_cons]; omega
  | case4 c d h hn ih =>
    unfold hexDecode at hd
    split at hd
    next hx hy hr => exact (hn _ _ _ hx hy hr).elim
    next => cases hd

/-- R213: a hex header holds at most the five header bytes and two of CRC. -/
theorem hexSection_length_le {buf l : List Byte} {used : Nat} (h : hexSection buf = .found l used) :
    l.length ≤ 5 + CrcWidth.w16.bytes := by
  unfold hexSection at h
  split at h
  · split at h <;> cases h
  · split at h
    · split at h
      · cases h
      next seven hs =>
        cases h
        have hlen := hexDecode_length hs
        rw [List.length_drop, List.length_take] at hlen
        change l.length ≤ 7
        omega
    · cases h

/-- R214: a binary header holds the five header bytes and the CRC. -/
theorem binSection_length_le {w : CrcWidth} {buf l : List Byte} {used : Nat}
    (h : binSection w buf = .found l used) : l.length ≤ 5 + w.bytes := by
  unfold binSection at h
  split at h
  · cases h
  next hs => cases h; exact (splice_length hs).le

/-- A CRC of 16 bits leaves the last two register bytes zero (R32). -/
theorem crcRegister_unused {bytes : List Byte} (h : bytes.length ≤ 2) :
    (crcRegister bytes).b2 = 0 ∧ (crcRegister bytes).b3 = 0 :=
  ⟨List.getD_eq_default _ _ h, List.getD_eq_default _ _ (h.trans (by decide))⟩

theorem raiseCrc_crcRegistersLegal (s : State) {w : CrcWidth} {x g : List Byte} (hx : x.length ≤ w.bytes)
    (hg : g.length ≤ w.bytes) : (s.raiseCrc w x g).crcRegistersLegal := by
  cases w with
  | w16 =>
    obtain ⟨hx2, hx3⟩ := crcRegister_unused hx
    obtain ⟨hg2, hg3⟩ := crcRegister_unused hg
    exact fun _ => ⟨hx2, hx3, hg2, hg3⟩
  | w32 => intro hk; cases hk

theorem resetBlock_statusRegistersLegal (s : State) : s.resetBlock.statusRegistersLegal := by
  have hreset : State.reset.statusRegistersLegal := by decide
  exact hreset

/-! ### What an instruction may write -/

theorem appendsRxbuf_of_consumesRxbuf {i : Instr} (h : consumesRxbuf i = true) :
    appendsRxbuf i = false := by
  cases i with
  | rxTrim | rxHdr | rxSub16 | rxSub32 | rxSplice => rfl
  | _ => cases h

/-- From `s` to `t` the instruction `i`, about to end with the code `st`, wrote only what its rules let it write
(R22 to R40), and what it wrote to the status registers is legal (R29 to R32, R216). -/
structure Writes (i : Instr) (st : Byte) (s t : State) : Prop where
  arg : t.arg = s.arg ∨ mayWriteArg i = true
  hdr : t.hdr = s.hdr ∨ mayWriteHdr i = true
  cfg : t.cfg = s.cfg ∨ mayWriteCfg i = true
  lastcode : t.lastcode = s.lastcode ∨ mayWriteLastcode i = true
  parsed : (t.rxh = s.rxh ∧ t.hfmt = s.hfmt) ∨ ((i = .rxHdr ∧ st = 0x00) ∧ t.parsedHeaderLegal)
  subt : t.subt = s.subt ∨ ((mayWriteSubt i = true ∧ st = 0x00) ∧ t.subtLegal)
  crc : (t.crcx = s.crcx ∧ t.crcg = s.crcg ∧ t.crck = s.crck) ∨
    ((mayRaiseCrc i = true ∧ st = 0x82) ∧ t.crcRegistersLegal)
  status : t.status = s.status ∨ t.statusLegal
  ibuf : t.ibuf = s.ibuf ∨ mayWriteIbuf i = true
  obuf : t.obuf = s.obuf ∨ (producesObuf i = true ∧ st = 0x00)
  rxbuf : t.rxbuf = s.rxbuf ∨ i = .rxClr ∨ consumesRxbuf i = true ∨ appendsRxbuf i = true
  consumed : consumesRxbuf i = true → t.rxbuf <:+ s.rxbuf
  appended : appendsRxbuf i = true → s.rxbuf <+: t.rxbuf
  txout : t.txout = s.txout ∨ transmits i = true
  sent : s.txout <+: t.txout

namespace Writes

variable {i : Instr} {st : Byte} {s t : State}

theorem refl : Writes i st s s where
  arg := .inl rfl
  hdr := .inl rfl
  cfg := .inl rfl
  lastcode := .inl rfl
  parsed := .inl ⟨rfl, rfl⟩
  subt := .inl rfl
  crc := .inl ⟨rfl, rfl, rfl⟩
  status := .inl rfl
  ibuf := .inl rfl
  obuf := .inl rfl
  rxbuf := .inl rfl
  consumed _ := List.suffix_rfl
  appended _ := List.prefix_rfl
  txout := .inl rfl
  sent := List.prefix_rfl

theorem finish (h : Writes i st s t) (c : StatusCode) : Writes i st s (t.finish c) :=
  { h with status := .inr c.code_mem }

theorem setArg (h : Writes i st s t) {v : BitVec 32} (hi : mayWriteArg i = true) :
    Writes i st s (t.setArg v) := { h with arg := .inr hi }

theorem setHdr (h : Writes i st s t) {v : Header} (hi : mayWriteHdr i = true) :
    Writes i st s (t.setHdr v) := { h with hdr := .inr hi }

theorem setCfg (h : Writes i st s t) {v : BitVec 2} (hi : mayWriteCfg i = true) :
    Writes i st s (t.setCfg v) := { h with cfg := .inr hi }

theorem setLastcode (h : Writes i st s t) {v : Byte} (hi : mayWriteLastcode i = true) :
    Writes i st s (t.setLastcode v) := { h with lastcode := .inr hi }

theorem setIbuf (h : Writes i st s t) {v : List Byte} (hi : mayWriteIbuf i = true) :
    Writes i st s (t.setIbuf v) := { h with ibuf := .inr hi }

theorem setObuf (h : Writes i 0x00 s t) {v : List Byte} (hi : producesObuf i = true) :
    Writes i 0x00 s (t.setObuf v) := { h with obuf := .inr ⟨hi, rfl⟩ }

theorem transmit (h : Writes i st s t) {v : List Byte} (hi : transmits i = true) :
    Writes i st s (t.transmit v) :=
  { h with txout := .inr hi, sent := h.sent.trans (List.prefix_append _ _) }

theorem setSubt (h : Writes i 0x00 s t) {v : Byte} (hi : mayWriteSubt i = true)
    (hv : isTerminator v = true) : Writes i 0x00 s (t.setSubt v) :=
  { h with subt := .inr ⟨⟨hi, rfl⟩, mem_subtValues_of_isTerminator hv⟩ }

theorem setParsedHeader (h : Writes .rxHdr 0x00 s t) {v : Header} {f : BitVec 2}
    (hv : supportedType v.b0 = true) (hf : f ≠ 0) : Writes .rxHdr 0x00 s (t.setParsedHeader v f) :=
  { h with parsed := .inr ⟨⟨rfl, rfl⟩, of_decide_eq_true hv, fun hz => absurd hz hf⟩ }

theorem raiseCrc (h : Writes i 0x82 s t) {w : CrcWidth} {x g : List Byte} (hi : mayRaiseCrc i = true)
    (hx : x.length ≤ w.bytes) (hg : g.length ≤ w.bytes) : Writes i 0x82 s (t.raiseCrc w x g) :=
  { h with
    crc := .inr ⟨⟨hi, rfl⟩, raiseCrc_crcRegistersLegal t hx hg⟩
    status := .inr (StatusCode.code_mem .eCrc) }

/-- A parser leaves a tail of RXBUF (R35). -/
theorem setRxbuf_suffix (h : Writes i st s t) {v : List Byte} (hi : consumesRxbuf i = true)
    (hv : v <:+ t.rxbuf) : Writes i st s (t.setRxbuf v) :=
  { h with
    rxbuf := .inr (.inr (.inl hi))
    consumed := fun hc => hv.trans (h.consumed hc)
    appended := fun ha => absurd ha (by simp [appendsRxbuf_of_consumesRxbuf hi]) }

theorem drop (h : Writes i st s t) (k : Nat) (hi : consumesRxbuf i = true) :
    Writes i st s (t.setRxbuf (t.rxbuf.drop k)) := h.setRxbuf_suffix hi (List.drop_suffix k _)

/-- An arrival extends RXBUF at its end (R35). -/
theorem append (h : Writes i st s t) (b : Byte) (hi : appendsRxbuf i = true) :
    Writes i st s (t.setRxbuf (t.rxbuf ++ [b])) :=
  { h with
    rxbuf := .inr (.inr (.inr hi))
    consumed := fun hc => absurd hi (by simp [appendsRxbuf_of_consumesRxbuf hc])
    appended := fun ha => (h.appended ha).trans (List.prefix_append _ _) }

/-- RX.CLR (R115). -/
theorem clearRxbuf (h : Writes .rxClr st s t) : Writes .rxClr st s (t.setRxbuf []) :=
  { h with rxbuf := .inr (.inl rfl), consumed := nofun, appended := nofun }

theorem pushReceived (h : Writes i st s t) (b : Byte) (hi : appendsRxbuf i = true) :
    Writes i st s (pushReceived b t) := by
  rcases pushReceived_cases b t with ⟨-, e⟩ | ⟨-, -, e⟩ | ⟨-, -, e⟩ <;> rw [e]
  · exact h.finish _
  · exact h.finish _
  · exact (h.append b hi).finish _

theorem feed (h : Writes i st s t) (bytes : List Byte) (hi : appendsRxbuf i = true) :
    Writes i st s (feed bytes t) := by
  induction bytes generalizing t with
  | nil => exact h
  | cons b bytes ih => exact ih (h.pushReceived b hi)

/-- What is kept stays legal, what is written is legal (R29 to R32). -/
theorem statusRegistersLegal (h : Writes i st s t) (hs : s.statusRegistersLegal) :
    t.statusRegistersLegal := by
  obtain ⟨hstatus, hsubt, hparsed, hcrc⟩ := hs
  refine ⟨?status, ?subt, ?parsed, ?crc⟩
  case status =>
    rcases h.status with e | legal
    · rwa [State.statusLegal, e]
    · exact legal
  case subt =>
    rcases h.subt with e | ⟨-, legal⟩
    · rwa [State.subtLegal, e]
    · exact legal
  case parsed =>
    rcases h.parsed with ⟨eh, ef⟩ | ⟨-, legal⟩
    · rwa [State.parsedHeaderLegal, eh, ef]
    · exact legal
  case crc =>
    rcases h.crc with ⟨ex, eg, ek⟩ | ⟨-, legal⟩
    · rwa [State.crcRegistersLegal, ex, eg, ek]
    · exact legal

end Writes

/-- An outcome is a next state in which `i` wrote only what it may, for the code it ended with. -/
inductive WritesOnly (i : Instr) (s : State) : Outcome → Prop
  | next {t : State} (h : Writes i t.status s t) : WritesOnly i s (.next t)

theorem WritesOnly.finish {i : Instr} {s t : State} {c : StatusCode} (h : Writes i c.code s t) :
    WritesOnly i s (.next (t.finish c)) := .next (h.finish c)

theorem WritesOnly.statusOnly {i : Instr} {s : State} (c : StatusCode) :
    WritesOnly i s (.next (s.finish c)) := .finish .refl

theorem WritesOnly.raiseCrc {i : Instr} {s t : State} {w : CrcWidth} {x g : List Byte}
    (h : Writes i 0x82 s t) (hi : mayRaiseCrc i = true) (hx : x.length ≤ w.bytes)
    (hg : g.length ≤ w.bytes) : WritesOnly i s (.next (t.raiseCrc w x g)) :=
  .next (h.raiseCrc hi hx hg)

theorem verifyTail_writesOnly {i : Instr} (hi : mayRaiseCrc i = true) (w : CrcWidth) (s : State) :
    WritesOnly i s (verifyTail w s) := by
  rcases verifyTail_cases w s with ⟨-, h⟩ | ⟨data, got, -, hgot, ⟨-, h⟩ | ⟨-, h⟩⟩ <;> rw [h]
  · exact .statusOnly _
  · exact .statusOnly _
  · exact .raiseCrc .refl hi (crcOf_length w data).le hgot.le

theorem acceptHeader_writesOnly {k : StartKind} (hk : BitVec.ofNat 2 k.code ≠ 0) {w : CrcWidth}
    {l : List Byte} (hl : l.length ≤ 5 + w.bytes) {used : Nat} {s : State} :
    WritesOnly .rxHdr s (acceptHeader k w l (s.setRxbuf (s.rxbuf.drop used))) := by
  rcases acceptHeader_cases k w l (s.setRxbuf (s.rxbuf.drop used)) with
    ⟨-, h⟩ | ⟨-, -, h⟩ | ⟨-, htype, h⟩ <;> rw [h]
  · have hgot : (l.drop 5).length ≤ w.bytes := by rw [List.length_drop]; omega
    exact .raiseCrc (.drop .refl used rfl) rfl (crcOf_length w _).le hgot
  · exact .finish (.drop .refl used rfl)
  · exact .finish (.setParsedHeader (.drop .refl used rfl) htype hk)

theorem takeHeader_writesOnly {k : StartKind} (hk : BitVec.ofNat 2 k.code ≠ 0) {w : CrcWidth}
    {x : HeaderSection} (hx : ∀ l used, x = .found l used → l.length ≤ 5 + w.bytes) (s : State) :
    WritesOnly .rxHdr s (takeHeader k w x s) := by
  rcases takeHeader_cases k w x s with ⟨-, h⟩ | ⟨used, -, h⟩ | ⟨l, used, hfound, h⟩ <;> rw [h]
  · exact .statusOnly _
  · exact .finish (.drop .refl used rfl)
  · exact acceptHeader_writesOnly hk (hx l used hfound)

theorem execRxHdr_writesOnly (s : State) : WritesOnly .rxHdr s (execRxHdr s) := by
  rcases execRxHdr_cases s with ⟨-, h⟩ | ⟨-, h⟩ | ⟨-, h⟩ | ⟨-, h⟩ | ⟨-, -, h⟩ <;> rw [h]
  · exact takeHeader_writesOnly (by decide) (fun _ _ => hexSection_length_le) s
  · exact takeHeader_writesOnly (by decide) (fun _ _ => binSection_length_le) s
  · exact takeHeader_writesOnly (by decide) (fun _ _ => binSection_length_le) s
  · exact .statusOnly _
  · exact .statusOnly _

theorem takeSub_writesOnly {i : Instr} (hi : i = .rxSub16 ∨ i = .rxSub32) (w : CrcWidth) (s : State) :
    WritesOnly i s (takeSub w s) := by
  have hcrc : mayRaiseCrc i = true := by rcases hi with rfl | rfl <;> rfl
  have hrx : consumesRxbuf i = true := by rcases hi with rfl | rfl <;> rfl
  have hobuf : producesObuf i = true := by rcases hi with rfl | rfl <;> rfl
  have hsubt : mayWriteSubt i = true := by rcases hi with rfl | rfl <;> rfl
  rcases takeSub_cases w s with ⟨-, h⟩ | ⟨n, got, u, hscan, hgot, h⟩ <;> rw [h]
  · exact .statusOnly _
  · have hterm := isTerminator_of_scanTerm hscan
    rcases acceptSub_cases w (s.rxbuf.take n) (s.rxbuf.getD (n + 1) 0) got
      (s.setRxbuf (s.rxbuf.drop (n + 2 + u))) with ⟨-, h⟩ | ⟨p, -, ⟨-, h⟩ | ⟨-, h⟩⟩ <;> rw [h]
    · exact .finish (.drop .refl _ hrx)
    · exact .raiseCrc (.drop .refl _ hrx) hcrc (crcOf_length w _).le (splice_length hgot).le
    · exact .finish (((Writes.refl.drop _ hrx).setObuf hobuf).setSubt hsubt hterm)

theorem execRxScan_writesOnly (s : State) : WritesOnly .rxScan s (execRxScan s) := by
  unfold execRxScan
  split
  · exact .statusOnly _
  next n hscan =>
    exact .finish ((Writes.refl.setArg rfl).setSubt rfl (isTerminator_of_scanTerm hscan))

theorem execRxSplice_writesOnly (n : Byte) (s : State) : WritesOnly (.rxSplice n) s (execRxSplice n s) := by
  unfold execRxSplice
  split
  · exact .statusOnly _
  · exact .finish ((Writes.refl.setObuf rfl).drop _ rfl)

theorem execRxTrim_writesOnly (s : State) : WritesOnly .rxTrim s (execRxTrim s) := by
  have hrest : (trim s.rxbuf).2 <:+ (s.setObuf (trim s.rxbuf).1).rxbuf := ⟨_, trim_append s.rxbuf⟩
  exact .finish (((Writes.refl.setObuf rfl).setRxbuf_suffix rfl hrest).setArg rfl)

/-- Every instruction but RST writes only what its rules let it write. -/
theorem exec_writesOnly {i : Instr} (hi : i ≠ .rst) (s : State) : WritesOnly i s (exec i s) := by
  cases i with
  | rst => exact absurd rfl hi
  | nop => exact .statusOnly .ok
  | illegal => exact .statusOnly .eIllegal
  | cfg => exact .finish (Writes.refl.setCfg rfl)
  | zencRst => exact .finish (Writes.refl.setLastcode rfl)
  | ibClr => exact .finish (Writes.refl.setIbuf rfl)
  | ibPush | ibLdob =>
    dsimp only [exec, execIbPush, execIbLdob]
    split
    · exact .statusOnly _
    · exact .finish (Writes.refl.setIbuf rfl)
  | argSet0 | argSet1 | argSet2 | argSet3 | zcls => exact .finish (Writes.refl.setArg rfl)
  | hdrSet0 | hdrSet1 | hdrSet2 | hdrSet3 | hdrSet4 => exact .finish (Writes.refl.setHdr rfl)
  | unpack16 | unpack32 =>
    dsimp only [exec, execUnpack16, execUnpack32]
    split
    · exact .statusOnly _
    · exact .finish (Writes.refl.setArg rfl)
  | pack32 | hexEnc => exact .finish (Writes.refl.setObuf rfl)
  | pack16 | hexDec | zdec =>
    dsimp only [exec, execPack16, execHexDec, execZdec]
    split
    · exact .statusOnly _
    · exact .finish (Writes.refl.setObuf rfl)
  | crc16 | crc32 => exact .finish ((Writes.refl.setObuf rfl).setArg rfl)
  | vfy16 | vfy32 => exact verifyTail_writesOnly rfl _ s
  | zenc => exact .finish ((Writes.refl.setObuf rfl).setLastcode rfl)
  | txHex sel =>
    dsimp only [exec, execTxHex]
    split
    · exact .statusOnly _
    · exact .finish (Writes.refl.transmit rfl)
  | txBin16 | txBin32 | txSub16 | txSub32 =>
    exact .finish ((Writes.refl.transmit rfl).setLastcode rfl)
  | rxPush b => exact .next (Writes.refl.pushReceived b rfl)
  | rxClr => exact .finish Writes.refl.clearRxbuf
  | rxTrim => exact execRxTrim_writesOnly s
  | rxHdr => exact execRxHdr_writesOnly s
  | rxSub16 => exact takeSub_writesOnly (.inl rfl) .w16 s
  | rxSub32 => exact takeSub_writesOnly (.inr rfl) .w32 s
  | rxScan => exact execRxScan_writesOnly s
  | rxSplice n => exact execRxSplice_writesOnly n s
  | wirePfxHex | wirePfxBin16 | wirePfxBin32 | wireEol0 | wireEol1 | wireEol2 | wireTerm | wireEsc =>
    exact .next (Writes.refl.feed _ rfl)

theorem exec_writes {i : Instr} {s t : State} (hi : i ≠ .rst) (h : exec i s = .next t) :
    Writes i t.status s t := by
  cases h ▸ exec_writesOnly hi s with
  | next hw => exact hw

theorem exec_statusRegistersLegal {i : Instr} {s t : State} (hs : s.statusRegistersLegal)
    (h : exec i s = .next t) : t.statusRegistersLegal := by
  by_cases hi : i = .rst
  · subst hi
    cases h
    exact resetBlock_statusRegistersLegal s
  · exact (exec_writes hi h).statusRegistersLegal hs

/-! ### The encoder's registers are not read -/

/-- The state with other values in the registers the encoder reads (R28, R40). -/
def State.withEncoder (s : State) (c : BitVec 2) (l : Byte) : State := (s.setCfg c).setLastcode l

/-- The next state an outcome holds, with other values in the encoder's registers. -/
def outcomeWithEncoder (c : BitVec 2) (l : Byte) : Outcome → Outcome
  | .next t => .next (t.withEncoder c l)
  | .fault r => .fault r
  | .refused r => .refused r

section
variable (s : State) (c : BitVec 2) (l : Byte)

@[simp] theorem State.withEncoder_ibuf : (s.withEncoder c l).ibuf = s.ibuf := rfl
@[simp] theorem State.withEncoder_rxbuf : (s.withEncoder c l).rxbuf = s.rxbuf := rfl

theorem pushReceived_withEncoder (b : Byte) :
    pushReceived b (s.withEncoder c l) = (pushReceived b s).withEncoder c l := by
  unfold pushReceived
  rw [apply_ite (State.withEncoder · c l), apply_ite (State.withEncoder · c l)]
  rfl

theorem feed_withEncoder (bytes : List Byte) :
    feed bytes (s.withEncoder c l) = (feed bytes s).withEncoder c l := by
  induction bytes generalizing s with
  | nil => rfl
  | cons b bytes ih => rw [feed_cons, feed_cons, pushReceived_withEncoder, ih]

theorem acceptHeader_withEncoder (k : StartKind) (w : CrcWidth) (logical : List Byte) :
    acceptHeader k w logical (s.withEncoder c l) = outcomeWithEncoder c l (acceptHeader k w logical s) := by
  unfold acceptHeader
  split
  · rfl
  · split <;> rfl

theorem takeHeader_withEncoder (k : StartKind) (w : CrcWidth) (x : HeaderSection) :
    takeHeader k w x (s.withEncoder c l) = outcomeWithEncoder c l (takeHeader k w x s) := by
  cases x with
  | incomplete => rfl
  | malformed used => rfl
  | found logical used => exact acceptHeader_withEncoder (s.consume used) c l k w logical

theorem execRxHdr_withEncoder :
    execRxHdr (s.withEncoder c l) = outcomeWithEncoder c l (execRxHdr s) := by
  unfold execRxHdr
  dsimp only [State.withEncoder_rxbuf]
  split
  · exact takeHeader_withEncoder s c l _ _ _
  · exact takeHeader_withEncoder s c l _ _ _
  · exact takeHeader_withEncoder s c l _ _ _
  · rfl
  · rw [apply_ite (outcomeWithEncoder c l)]
    rfl

theorem acceptSub_withEncoder (w : CrcWidth) (raw : List Byte) (t : Byte) (got : List Byte) :
    acceptSub w raw t got (s.withEncoder c l) = outcomeWithEncoder c l (acceptSub w raw t got s) := by
  unfold acceptSub
  split
  · rfl
  · split <;> rfl

theorem takeSub_withEncoder (w : CrcWidth) :
    takeSub w (s.withEncoder c l) = outcomeWithEncoder c l (takeSub w s) := by
  unfold takeSub
  dsimp only [State.withEncoder_rxbuf]
  split
  · rfl
  · split
    · rfl
    · exact acceptSub_withEncoder (s.consume _) c l _ _ _ _

end

/-- Whatever decodes, parses or receives does the same under every CFG and LASTCODE (R41, R168). -/
theorem exec_withEncoder {i : Instr}
    (hi : consumesRxbuf i = true ∨ i = .rxScan ∨ i = .zdec ∨ i = .hexDec ∨ appendsRxbuf i = true)
    (s : State) (c : BitVec 2) (l : Byte) :
    exec i (s.withEncoder c l) = outcomeWithEncoder c l (exec i s) := by
  cases i with
  | hexDec | zdec | rxScan | rxSplice =>
    dsimp only [exec, execHexDec, execZdec, execRxScan, execRxSplice, State.withEncoder_ibuf,
      State.withEncoder_rxbuf]
    split <;> rfl
  | rxTrim => rfl
  | rxHdr => exact execRxHdr_withEncoder s c l
  | rxSub16 | rxSub32 => exact takeSub_withEncoder s c l _
  | rxPush b => exact congrArg Host.Outcome.next (pushReceived_withEncoder s c l b)
  | wirePfxHex | wirePfxBin16 | wirePfxBin32 | wireEol0 | wireEol1 | wireEol2 | wireTerm | wireEsc =>
    exact congrArg Host.Outcome.next (feed_withEncoder s c l _)
  | _ => rcases hi with h | h | h | h | h <;> cases h

/-! ### The obligations -/

/-- Settles O45: what an instruction keeps stays legal and what it writes is legal; bytes that are no wire
pattern arrive as a wire row's do (log 3). -/
theorem stepKeepsStatusRegistersLegal : Obligations.StepKeepsStatusRegistersLegal := by
  intro s t hs hstep
  rcases step_cases s with ⟨-, h⟩ | ⟨rest, -, h⟩ | ⟨c, i, rest, -, -, h⟩ | ⟨bytes, rest, -, -, h⟩ <;>
    rw [h] at hstep
  · cases hstep
    exact hs
  · cases hstep
    exact resetBlock_statusRegistersLegal _
  · have hrest : (s.withPending rest).statusRegistersLegal := hs
    exact exec_statusRegistersLegal hrest hstep
  · cases hstep
    have hrest : (s.withPending rest).statusRegistersLegal := hs
    have hfeed : Writes .wireEol2 0x00 (s.withPending rest) (feed bytes (s.withPending rest)) :=
      Writes.refl.feed bytes rfl
    exact hfeed.statusRegistersLegal hrest

/-- Settles O37: RST is a writer of all four, every other instruction writes only what it may. -/
theorem operandRegisterFrame : Obligations.OperandRegisterFrame := by
  intro i s t h
  by_cases hi : i = .rst
  · subst hi
    exact ⟨nofun, nofun, nofun, nofun⟩
  · have hw := exec_writes hi h
    exact ⟨fun hn => hw.arg.resolve_right (by simp [hn]), fun hn => hw.hdr.resolve_right (by simp [hn]),
      fun hn => hw.cfg.resolve_right (by simp [hn]), fun hn => hw.lastcode.resolve_right (by simp [hn])⟩

/-- Settles O38: the three disjunctions of `Writes` on the result registers. -/
theorem resultRegisterFrame : Obligations.ResultRegisterFrame := by
  intro i s t h hi
  have hw := exec_writes hi h
  exact ⟨fun hn => hw.parsed.resolve_right fun hp => hn hp.1,
    fun hn => hw.subt.resolve_right fun hp => hn hp.1,
    fun hn => hw.crc.resolve_right fun hp => hn hp.1⟩

/-- Settles O39: what `Writes` says of the four buffers. -/
theorem bufferFrame : Obligations.BufferFrame := by
  intro i s t h hi
  have hw := exec_writes hi h
  refine ⟨fun hn => hw.ibuf.resolve_right (by simp [hn]), hw.obuf.resolve_right, fun hclr hc ha => ?rxbuf,
    hw.consumed, hw.appended, fun hn => hw.txout.resolve_right (by simp [hn]), hw.sent⟩
  case rxbuf => exact hw.rxbuf.resolve_right (by simp [hclr, hc, ha])

/-- Settles O41: a receiver commutes with a change of the encoder's registers. -/
theorem receiversIgnoreTheEncoder : Obligations.ReceiversIgnoreTheEncoder := by
  intro i s t c l hi h
  have hexec := exec_withEncoder hi s c l
  rw [h] at hexec
  exact hexec

/-- Settles O42, port by port. -/
theorem readsNeverShowLastcode : Obligations.ReadsNeverShowLastcode := by
  intro s l p
  cases p <;> rfl

/-- Settles O46: RST and the reset state agree on the block. -/
theorem resetMeetsTheInvariants : Obligations.ResetMeetsTheInvariants := by
  have hcap : State.reset.withinCapacities := by decide
  have hrx : State.reset.rxbufFiltered := by decide
  exact ⟨hcap, hrx, resetBlock_statusRegistersLegal State.reset⟩

end Sys2Proof.Machine

namespace Sys2Proof.Machine

/-! ### A word the host is about to issue -/

/-- A legal command word, read as a number of the opcode table, is that word (log 4). -/
theorem tableCode_of_legalWord {cw : CommandWord} (h : illegalWord cw = false) :
    tableCode 16 cw.toNat = .word cw := by
  simp [tableCode, h]

/-- R71: a presented code that decodes is run, on the state with that action taken. -/
theorem step_of_decode {s : State} {c : Code} {i : Instr} {rest : List HostAction}
    (hp : s.pending = .present c :: rest) (hd : decode c = .ok i) :
    step s = exec i (s.withPending rest) := by
  unfold step
  rw [hp]
  dsimp only
  rw [hd]

/-- The word the host is about to issue is what the very next step runs, and its presenting leaves no trace. -/
theorem step_withFetchWord {cw : CommandWord} (h : illegalWord cw = false) (s : State) :
    step (s.withFetchWord 16 cw.toNat) = exec (decodeCommand cw) s := by
  have hp : (s.withFetchWord 16 cw.toNat).pending = .present (.word cw) :: s.pending := by
    rw [← tableCode_of_legalWord h]
    rfl
  exact step_present_word hp

/-! ### Packing and unpacking (R120 to R127) -/

/-- R120: within range the packer writes the two low bytes, high byte first. -/
theorem packU16be_of_le {v : BitVec 32} (h : v.toNat ≤ 0xFFFF) :
    packU16be v.toNat = some [v.extractLsb' 8 8, v.extractLsb' 0 8] := by
  have hrange : ¬ 0xFFFF < v.toNat := by omega
  simp only [packU16be, hrange, if_false, Option.some.injEq, List.cons.injEq, and_true]
  constructor <;> apply BitVec.eq_of_toNat_eq <;>
    simp [BitVec.extractLsb'_toNat, Nat.shiftRight_eq_div_pow]

theorem unpackU16be_packed {v : BitVec 32} (h : v.toNat ≤ 0xFFFF) :
    unpackU16be [v.extractLsb' 8 8, v.extractLsb' 0 8] = some v.toNat := by
  simp only [unpackU16be, BitVec.extractLsb'_toNat, Nat.shiftRight_eq_div_pow, Option.some.injEq]
  omega

/-- R133: unpacking inverts packing on every 32-bit value. -/
theorem unpackU32le_packU32le (v : BitVec 32) : unpackU32le (packU32le v) = some v.toNat := by
  simp only [unpackU32le, packU32le, BitVec.extractLsb'_toNat, Nat.shiftRight_eq_div_pow,
    Option.some.injEq]
  have := v.isLt
  omega

theorem exec_pack16_of_le {s : State} (h : s.arg.toNat ≤ 0xFFFF) :
    exec .pack16 s =
      .next ((s.setObuf [s.arg.extractLsb' 8 8, s.arg.extractLsb' 0 8]).finish .ok) := by
  dsimp only [exec, execPack16]
  rw [packU16be_of_le h]
  rfl

theorem exec_unpack16_of_toNat {s : State} {v : BitVec 32} (h : unpackU16be s.ibuf = some v.toNat) :
    exec .unpack16 s = .next ((s.setArg v).finish .ok) := by
  simp [exec, execUnpack16, h]

theorem exec_unpack32_of_toNat {s : State} {v : BitVec 32} (h : unpackU32le s.ibuf = some v.toNat) :
    exec .unpack32 s = .next ((s.setArg v).finish .ok) := by
  simp [exec, execUnpack32, h]

/-- R7: a well-formed IBUF takes any operand of up to 8192 bytes. -/
theorem not_exceeds_of_wellFormed {p : Config.Params} {n : Nat} (hp : p.wellFormed = true)
    (hn : n ≤ 8192) : exceeds n p.ibufCap = false := by
  cases hc : p.ibufCap with
  | none => rfl
  | some cap =>
    simp only [Config.Params.wellFormed, hc, Bool.and_eq_true, decide_eq_true_eq] at hp
    simp only [exceeds, decide_eq_false_iff_not]
    omega

theorem exec_ibLdob_of_fits {s : State} (h : exceeds s.obuf.length s.params.ibufCap = false) :
    exec .ibLdob s = .next ((s.setIbuf s.obuf).finish .ok) := by
  dsimp only [exec, execIbLdob]
  rw [h]
  rfl

/-- R62: a sequence goes on from the state its first command leaves. -/
theorem execAll_cons_of_next {i : Instr} {s t : State} (h : exec i s = .next t) (is : List Instr) :
    execAll (i :: is) s = execAll is t := by
  rw [execAll, h]

/-- R55: a producer of at most 8192 bytes, IB.LDOB and a consumer that restores ARG, in sequence. -/
theorem execAll_produce_load_consume {produce consume : Instr} {s : State} {bytes : List Byte}
    (hp : s.params.wellFormed = true) (hlen : bytes.length ≤ 8192)
    (hproduce : exec produce s = .next ((s.setObuf bytes).finish .ok))
    (hconsume : ∀ t : State, t.ibuf = bytes → exec consume t = .next ((t.setArg s.arg).finish .ok)) :
    execAll [produce, .ibLdob, consume] s =
      .next { s with obuf := bytes, ibuf := bytes, status := 0x00 } := by
  have hload : exec .ibLdob ((s.setObuf bytes).finish .ok) =
      .next ((((s.setObuf bytes).finish .ok).setIbuf bytes).finish .ok) :=
    exec_ibLdob_of_fits (not_exceeds_of_wellFormed hp hlen)
  have hrestore := hconsume ((((s.setObuf bytes).finish .ok).setIbuf bytes).finish .ok) rfl
  rw [execAll_cons_of_next hproduce, execAll_cons_of_next hload, execAll_cons_of_next hrestore]
  simp only [execAll, State.setObuf, State.setIbuf, State.setArg, State.finish, StatusCode.code]

/-! ### What stands at the head of a buffer (R200) -/

theorem startsWith_iff {p s : List Byte} : startsWith p s = true ↔ p <+: s := by
  rw [startsWith, decide_eq_true_eq, List.prefix_iff_eq_take, eq_comm]

theorem properPrefix_iff {s p : List Byte} :
    properPrefix s p = true ↔ s <+: p ∧ ¬ p <+: s := by
  rw [properPrefix, Bool.and_eq_true, decide_eq_true_eq, decide_eq_true_eq, eq_comm (b := s),
    ← List.prefix_iff_eq_take, and_comm, and_congr_right_iff]
  intro h
  exact ⟨fun hlt hp => absurd hp.length_le (by omega),
    fun hp => lt_of_not_ge fun hle => hp (h.eq_of_length_le hle ▸ List.prefix_rfl)⟩

/-- Of two sequences neither of which starts with the other, at most one stands at the head of `s`. -/
theorem not_prefix_of_prefix {p q s : List Byte} (hpq : ¬ p <+: q) (hqp : ¬ q <+: p) (hp : p <+: s) :
    ¬ q <+: s := fun hq => (List.prefix_or_prefix_of_prefix hp hq).elim hpq hqp

theorem startKind_of_hex {s : List Byte} (h : pfxHex <+: s) : startKind s = .hex := by
  rw [startKind, if_pos (startsWith_iff.mpr h)]

theorem startKind_of_bin16 {s : List Byte} (h : pfxBin16 <+: s) : startKind s = .bin16 := by
  have hhex : ¬ pfxHex <+: s := not_prefix_of_prefix (by decide) (by decide) h
  simp only [startKind, startsWith_iff, h, hhex, if_true, if_false]

theorem startKind_of_bin32 {s : List Byte} (h : pfxBin32 <+: s) : startKind s = .bin32 := by
  have hhex : ¬ pfxHex <+: s := not_prefix_of_prefix (by decide) (by decide) h
  have hbin16 : ¬ pfxBin16 <+: s := not_prefix_of_prefix (by decide) (by decide) h
  simp only [startKind, startsWith_iff, h, hhex, hbin16, if_true, if_false]

/-- No frame starts where none of the three patterns stands and none can still come. -/
theorem startKind_of_no_prefix {s : List Byte}
    (h : ∀ p ∈ [pfxHex, pfxBin16, pfxBin32], ¬ p <+: s ∧ ¬ s <+: p) : startKind s = .noStart := by
  simp only [List.forall_mem_cons] at h
  obtain ⟨⟨hhex, hhex'⟩, ⟨hb16, hb16'⟩, ⟨hb32, hb32'⟩, -⟩ := h
  simp [startKind, startsWith_iff, properPrefix_iff, *]

theorem startKind_nil : startKind [] = .noStart := by decide

/-- What stands at the head of a buffer, once it is decided (R200). -/
theorem startKind_cases {s : List Byte} (hne : s ≠ []) (hdec : startKind s ≠ .undecided) :
    pfxHex <+: s ∨ pfxBin16 <+: s ∨ pfxBin32 <+: s ∨
      ∀ p ∈ [pfxHex, pfxBin16, pfxBin32], ¬ p <+: s ∧ ¬ s <+: p := by
  by_cases hhex : pfxHex <+: s
  · exact .inl hhex
  by_cases hb16 : pfxBin16 <+: s
  · exact .inr (.inl hb16)
  by_cases hb32 : pfxBin32 <+: s
  · exact .inr (.inr (.inl hb32))
  right; right; right
  have hfalse : ¬ (s <+: pfxHex ∨ s <+: pfxBin16 ∨ s <+: pfxBin32) := by
    intro h
    exact hdec (by simp [startKind, startsWith_iff, properPrefix_iff, hne, hhex, hb16, hb32, h])
  simpa [hhex, hb16, hb32] using hfalse

/-- R206: a decided start is not changed by what follows. -/
theorem startKind_append {s : List Byte} (hne : s ≠ []) (hdec : startKind s ≠ .undecided)
    (u : List Byte) : startKind (s ++ u) = startKind s := by
  have hsu : s <+: s ++ u := List.prefix_append s u
  rcases startKind_cases hne hdec with h | h | h | h
  · rw [startKind_of_hex h, startKind_of_hex (h.trans hsu)]
  · rw [startKind_of_bin16 h, startKind_of_bin16 (h.trans hsu)]
  · rw [startKind_of_bin32 h, startKind_of_bin32 (h.trans hsu)]
  · rw [startKind_of_no_prefix h, startKind_of_no_prefix]
    intro p hp
    obtain ⟨hps, hsp⟩ := h p hp
    exact ⟨fun hpu => (List.prefix_or_prefix_of_prefix hpu hsu).elim hps hsp,
      fun hup => hsp (hsu.trans hup)⟩

/-! ### Bytes behind what a parser uses -/

/-- R174: a splice that succeeded uses bytes of the stream. -/
theorem splice_used_le {n : Nat} {s out : List Byte} {i : Nat} (h : splice n s = some (out, i)) :
    i ≤ s.length := by
  induction n, s using splice.induct generalizing out i with
  | case1 s =>
    rw [splice_zero] at h
    cases h
    exact Nat.zero_le _
  | case2 n => cases h
  | case3 n => cases (splice_lone n).symm.trans h
  | case4 n f s ih =>
    rw [splice_pair] at h
    obtain ⟨⟨o, j⟩, hs, heq⟩ := Option.map_eq_some_iff.mp h
    cases heq
    simpa using ih hs
  | case5 n b s hb ih =>
    rw [splice_literal hb] at h
    obtain ⟨⟨o, j⟩, hs, heq⟩ := Option.map_eq_some_iff.mp h
    cases heq
    simpa using ih hs

/-- R174: a splice that succeeded is not changed by more input. -/
theorem splice_append {n : Nat} {s : List Byte} {r : List Byte × Nat} (h : splice n s = some r)
    (u : List Byte) : splice n (s ++ u) = some r := by
  induction n, s using splice.induct generalizing r with
  | case1 s => simpa using h
  | case2 n => cases h
  | case3 n => cases (splice_lone n).symm.trans h
  | case4 n f s ih =>
    rw [splice_pair] at h
    obtain ⟨o, hs, rfl⟩ := Option.map_eq_some_iff.mp h
    rw [List.cons_append, List.cons_append, splice_pair, ih hs, Option.map_some]
  | case5 n b s hb ih =>
    rw [splice_literal hb] at h
    obtain ⟨o, hs, rfl⟩ := Option.map_eq_some_iff.mp h
    rw [List.cons_append, splice_literal hb, ih hs, Option.map_some]

/-- R237: a buffer of fewer than two bytes holds no marker. -/
theorem scanTerm_of_short {s : List Byte} (hs : ∀ z t r, s = z :: t :: r → False) :
    scanTerm s = none := by
  unfold scanTerm
  split
  next z t r => exact (hs z t r rfl).elim
  next => rfl

/-- R237: the marker's two bytes are in the buffer. -/
theorem scanTerm_add_two_le {s : List Byte} {i : Nat} (h : scanTerm s = some i) : i + 2 ≤ s.length := by
  induction s using scanTerm.induct generalizing i with
  | case1 z t s hm =>
    rw [scanTerm_cons_cons, if_pos hm] at h
    cases h
    simp
  | case2 z t s hm ih =>
    rw [scanTerm_cons_cons, if_neg hm] at h
    obtain ⟨j, hs, rfl⟩ := Option.map_eq_some_iff.mp h
    have := ih hs
    simp only [List.length_cons] at this ⊢
    omega
  | case3 s hs => cases (scanTerm_of_short hs).symm.trans h

/-- The first marker is the first whatever follows. -/
theorem scanTerm_append {s : List Byte} {i : Nat} (h : scanTerm s = some i) (u : List Byte) :
    scanTerm (s ++ u) = some i := by
  induction s using scanTerm.induct generalizing i with
  | case1 z t s hm =>
    rw [scanTerm_cons_cons, if_pos hm] at h
    rw [List.cons_append, List.cons_append, scanTerm_cons_cons, if_pos hm, h]
  | case2 z t s hm ih =>
    rw [scanTerm_cons_cons, if_neg hm] at h
    obtain ⟨j, hs, rfl⟩ := Option.map_eq_some_iff.mp h
    rw [List.cons_append, List.cons_append, scanTerm_cons_cons, if_neg hm, ← List.cons_append, ih hs,
      Option.map_some]
  | case3 s hs => cases (scanTerm_of_short hs).symm.trans h

/-! ### Delimited headers -/

/-- The raw bytes a section takes off the buffer (R211 to R214). -/
def HeaderSection.used : HeaderSection → Nat
  | .incomplete => 0
  | .malformed used => used
  | .found _ used => used

/-- The hex section once the LF is found in the window (R212, R213). -/
theorem hexSection_of_lf {buf : List Byte} {j : Nat}
    (h : (buf.take hexLfWindow).findIdx? isLf = some j) :
    hexSection buf =
      if j = 18 ∨ (j = 19 ∧ isCr (buf.getD 18 0)) then
        (hexDecode ((buf.take 18).drop 4)).elim (.malformed (j + 1)) (.found · (j + 1))
      else .malformed (j + 1) := by
  rw [hexSection, h]
  cases hexDecode ((buf.take 18).drop 4) <;> rfl

/-- The hex section with no LF in the window (R211). -/
theorem hexSection_of_no_lf {buf : List Byte} (h : (buf.take hexLfWindow).findIdx? isLf = none) :
    hexSection buf = if buf.length < hexLfWindow then .incomplete else .malformed pfxHex.length := by
  rw [hexSection, h]

/-- An LF found in the window is a byte of the buffer. -/
theorem lt_length_of_lf {buf : List Byte} {j : Nat}
    (h : (buf.take hexLfWindow).findIdx? isLf = some j) : j < buf.length := by
  have hj := (List.findIdx?_eq_some_iff_findIdx_eq.mp h).1
  rw [List.length_take] at hj
  omega

/-- The LF found in the window is the one found whatever follows. -/
theorem lf_append {buf : List Byte} {j : Nat} (h : (buf.take hexLfWindow).findIdx? isLf = some j)
    (u : List Byte) : ((buf ++ u).take hexLfWindow).findIdx? isLf = some j := by
  rw [List.take_append, List.findIdx?_append, h, Option.some_or]

theorem hexSection_used_le (buf : List Byte) : (hexSection buf).used ≤ buf.length := by
  cases h : (buf.take hexLfWindow).findIdx? isLf with
  | none =>
    rw [hexSection_of_no_lf h]
    split
    · exact Nat.zero_le _
    next hfull => exact (show 4 ≤ hexLfWindow by decide).trans (not_lt.mp hfull)
  | some j =>
    rw [hexSection_of_lf h]
    have hj : j + 1 ≤ buf.length := lt_length_of_lf h
    split
    · cases hexDecode ((buf.take 18).drop 4) <;> exact hj
    · exact hj

/-- R58: a hex header that is delimited, well or ill formed, is delimited alike whatever follows. -/
theorem hexSection_append {buf : List Byte} (h : hexSection buf ≠ .incomplete) (u : List Byte) :
    hexSection (buf ++ u) = hexSection buf := by
  cases hlf : (buf.take hexLfWindow).findIdx? isLf with
  | none =>
    rw [hexSection_of_no_lf hlf] at h ⊢
    have hfull : ¬ buf.length < hexLfWindow := fun hlt => h (if_pos hlt)
    have htake : (buf ++ u).take hexLfWindow = buf.take hexLfWindow :=
      List.take_append_of_le_length (not_lt.mp hfull)
    have hfull' : ¬ (buf ++ u).length < hexLfWindow := by rw [List.length_append]; omega
    rw [hexSection_of_no_lf (htake ▸ hlf), if_neg hfull, if_neg hfull']
  | some j =>
    rw [hexSection_of_lf hlf, hexSection_of_lf (lf_append hlf u)]
    have hj := lt_length_of_lf hlf
    by_cases hshort : j < 18
    · have hno : ∀ c : Prop, ¬ (j = 18 ∨ (j = 19 ∧ c)) := by intro c; omega
      rw [if_neg (hno _), if_neg (hno _)]
    · rw [List.getD_append _ _ _ _ (by omega), List.take_append_of_le_length (by omega)]

theorem binSection_used_le (w : CrcWidth) {buf : List Byte} (h3 : 3 ≤ buf.length) :
    (binSection w buf).used ≤ buf.length := by
  unfold binSection
  split
  · exact Nat.zero_le _
  next l n hs =>
    have := splice_used_le hs
    rw [List.length_drop] at this
    change 3 + n ≤ buf.length
    omega

/-- R58: a binary header that is all there is delimited alike whatever follows. -/
theorem binSection_append (w : CrcWidth) {buf : List Byte} (h3 : 3 ≤ buf.length)
    (h : binSection w buf ≠ .incomplete) (u : List Byte) :
    binSection w (buf ++ u) = binSection w buf := by
  unfold binSection at h ⊢
  cases hs : splice (5 + w.bytes) (buf.drop 3) with
  | none => rw [hs] at h; exact absurd rfl h
  | some r => rw [List.drop_append_of_le_length h3, splice_append hs]

/-! ### A parser, with and without more bytes -/

/-- The state with the bytes `u` arrived behind RXBUF. -/
def State.followedBy (s : State) (u : List Byte) : State := s.setRxbuf (s.rxbuf ++ u)

@[simp] theorem State.followedBy_rxbuf (s : State) (u : List Byte) :
    (s.followedBy u).rxbuf = s.rxbuf ++ u := rfl

/-- What is consumed from the front does not touch what follows (R12). -/
theorem State.followedBy_consume {s : State} {k : Nat} (hk : k ≤ s.rxbuf.length) (u : List Byte) :
    (s.followedBy u).consume k = (s.consume k).followedBy u := by
  simp [State.followedBy, List.drop_append_of_le_length hk, State.setRxbuf]

/-- How a parser's outcome at `s` and its outcome with `u` behind RXBUF hang together (R58): INCOMPLETE with only
STATUS written, or any other code and the same next state with `u` still behind. -/
inductive IgnoresChunking (s : State) (u : List Byte) : Outcome → Outcome → Prop
  | incomplete (o : Outcome) : IgnoresChunking s u (.next (s.finish .incomplete)) o
  | settled {t : State} (h : t.status ≠ 0x01) :
      IgnoresChunking s u (.next t) (.next (t.followedBy u))

theorem acceptHeader_ignoresChunking (k : StartKind) (w : CrcWidth) (l : List Byte) (s t : State)
    (u : List Byte) :
    IgnoresChunking s u (acceptHeader k w l t) (acceptHeader k w l (t.followedBy u)) := by
  unfold acceptHeader
  cases verify w (l.take 5) (l.drop 5) with
  | mismatch x g => exact .settled (t := t.raiseCrc w x g) nofun
  | good =>
    cases supportedType (headerOf l).b0 with
    | false => exact .settled (t := t.finish .eUnsupported) nofun
    | true => exact .settled (t := (t.setParsedHeader _ _).finish .ok) nofun

/-- A header parser keeps to R58 when its section does. -/
theorem takeHeader_ignoresChunking (k : StartKind) (w : CrcWidth) {x x' : HeaderSection} {s : State}
    {u : List Byte} (hused : x.used ≤ s.rxbuf.length) (hx : x ≠ .incomplete → x' = x) :
    IgnoresChunking s u (takeHeader k w x s) (takeHeader k w x' (s.followedBy u)) := by
  cases x with
  | incomplete => exact .incomplete _
  | malformed used =>
    rw [hx nofun]
    dsimp only [takeHeader]
    rw [State.followedBy_consume (k := used) hused]
    exact .settled (t := (s.consume used).finish .eHexfmt) nofun
  | found l used =>
    rw [hx nofun]
    dsimp only [takeHeader]
    rw [State.followedBy_consume (k := used) hused]
    exact acceptHeader_ignoresChunking k w l s (s.consume used) u

theorem execRxHdr_ignoresChunking (s : State) (u : List Byte) :
    IgnoresChunking s u (execRxHdr s) (execRxHdr (s.followedBy u)) := by
  by_cases hwait : s.rxbuf = [] ∨ startKind s.rxbuf = .undecided
  · have hinc : execRxHdr s = .next (s.finish .incomplete) := by
      rcases hwait with h | h
      · simp [execRxHdr, h, startKind_nil]
      · simp [execRxHdr, h]
    rw [hinc]
    exact .incomplete _
  · obtain ⟨hne, hdec⟩ := not_or.mp hwait
    unfold execRxHdr
    rw [State.followedBy_rxbuf, startKind_append hne hdec]
    rcases startKind_cases hne hdec with h | h | h | h
    · rw [startKind_of_hex h]
      exact takeHeader_ignoresChunking _ _ (hexSection_used_le _) fun hs => hexSection_append hs u
    · rw [startKind_of_bin16 h]
      have h3 : 3 ≤ s.rxbuf.length := h.length_le
      exact takeHeader_ignoresChunking _ _ (binSection_used_le _ h3) fun hs => binSection_append _ h3 hs u
    · rw [startKind_of_bin32 h]
      have h3 : 3 ≤ s.rxbuf.length := h.length_le
      exact takeHeader_ignoresChunking _ _ (binSection_used_le _ h3) fun hs => binSection_append _ h3 hs u
    · rw [startKind_of_no_prefix h]
      dsimp only
      rw [if_neg hne, if_neg (List.append_ne_nil_of_left_ne_nil hne u)]
      exact .settled (t := s.finish .eNoframe) nofun

theorem acceptSub_ignoresChunking (w : CrcWidth) (raw : List Byte) (b : Byte) (got : List Byte)
    (s t : State) (u : List Byte) :
    IgnoresChunking s u (acceptSub w raw b got t) (acceptSub w raw b got (t.followedBy u)) := by
  unfold acceptSub
  cases zdecode raw with
  | none => exact .settled (t := t.finish .eBadesc) nofun
  | some p =>
    dsimp only
    cases verify w (p ++ [b]) got with
    | mismatch x g => exact .settled (t := t.raiseCrc w x g) nofun
    | good => exact .settled (t := ((t.setObuf p).setSubt b).finish .ok) nofun

theorem takeSub_ignoresChunking (w : CrcWidth) (s : State) (u : List Byte) :
    IgnoresChunking s u (takeSub w s) (takeSub w (s.followedBy u)) := by
  unfold takeSub
  rw [State.followedBy_rxbuf]
  cases hscan : scanTerm s.rxbuf with
  | none => exact .incomplete _
  | some i =>
    have hi := scanTerm_add_two_le hscan
    rw [scanTerm_append hscan]
    dsimp only
    rw [List.drop_append_of_le_length hi]
    cases hsplice : splice w.bytes (s.rxbuf.drop (i + 2)) with
    | none => exact .incomplete _
    | some r =>
      obtain ⟨got, n⟩ := r
      have hn := splice_used_le hsplice
      rw [List.length_drop] at hn
      rw [splice_append hsplice]
      dsimp only
      rw [List.take_append_of_le_length (by omega), List.getD_append _ _ _ _ (by omega),
        State.followedBy_consume (by omega)]
      exact acceptSub_ignoresChunking w _ _ got s _ u

theorem execRxScan_ignoresChunking (s : State) (u : List Byte) :
    IgnoresChunking s u (execRxScan s) (execRxScan (s.followedBy u)) := by
  unfold execRxScan
  rw [State.followedBy_rxbuf]
  cases hscan : scanTerm s.rxbuf with
  | none => exact .incomplete _
  | some i =>
    have hi := scanTerm_add_two_le hscan
    rw [scanTerm_append hscan]
    dsimp only
    rw [List.getD_append _ _ _ _ (by omega)]
    exact .settled (t := ((s.setArg _).setSubt _).finish .ok) nofun

theorem execRxSplice_ignoresChunking (n : Byte) (s : State) (u : List Byte) :
    IgnoresChunking s u (execRxSplice n s) (execRxSplice n (s.followedBy u)) := by
  unfold execRxSplice
  rw [State.followedBy_rxbuf]
  cases hsplice : splice (spliceCount n) s.rxbuf with
  | none => exact .incomplete _
  | some r =>
    have hused : r.2 ≤ s.rxbuf.length := splice_used_le hsplice
    have hconsume : ((s.followedBy u).setObuf r.1).consume r.2 =
        ((s.setObuf r.1).consume r.2).followedBy u :=
      State.followedBy_consume (s := s.setObuf r.1) hused u
    rw [splice_append hsplice]
    dsimp only
    rw [hconsume]
    exact .settled (t := ((s.setObuf r.1).consume r.2).finish .ok) nofun

/-! ### The obligations -/

/-- Settles O28: what is presented is decoded and run; a legal word of the opcode table is presented as itself. -/
theorem stepRunsTheDecodedInstruction : Obligations.StepRunsTheDecodedInstruction :=
  ⟨fun _ _ _ _ hp hd => step_of_decode hp hd, fun _ _ _ hp => step_present_word hp,
    fun s _ hlegal => step_withFetchWord hlegal s⟩

/-- Settles O47: both packers are inverted by their unpackers, and their few bytes fit IBUF. -/
theorem packRoundTrips : Obligations.PackRoundTrips := by
  intro s hp
  refine ⟨fun hrange => ?pack16, ?pack32⟩
  case pack16 =>
    refine execAll_produce_load_consume hp (by simp) (exec_pack16_of_le hrange) fun t ht => ?_
    exact exec_unpack16_of_toNat (ht ▸ unpackU16be_packed hrange)
  case pack32 =>
    refine execAll_produce_load_consume hp (by simp) rfl fun t ht => ?_
    exact exec_unpack32_of_toNat (ht ▸ unpackU32le_packU32le s.arg)

/-- Settles O59: each of the parsers is `IgnoresChunking`, whose two cases are the two clauses. -/
theorem parsingIgnoresChunking : Obligations.ParsingIgnoresChunking := by
  intro i s t u hi hexec
  have hchunk : IgnoresChunking s u (exec i s) (exec i (s.followedBy u)) := by
    rcases hi with rfl | rfl | rfl | rfl | ⟨n, rfl⟩
    · exact execRxHdr_ignoresChunking s u
    · exact takeSub_ignoresChunking .w16 s u
    · exact takeSub_ignoresChunking .w32 s u
    · exact execRxScan_ignoresChunking s u
    · exact execRxSplice_ignoresChunking n s u
  rw [hexec] at hchunk
  change _ ∧ (_ → exec i (s.followedBy u) = .next (t.followedBy u))
  generalize exec i (s.followedBy u) = o at hchunk ⊢
  cases hchunk with
  | incomplete => exact ⟨fun _ => rfl, fun hne => absurd rfl hne⟩
  | settled hne => exact ⟨fun h => absurd h hne, fun _ => rfl⟩

end Sys2Proof.Machine

namespace Sys2Proof.Machine

/-! ### The fields of a command word (R70, R72) -/

theorem opcode_toNat (cw : CommandWord) : (opcode cw).toNat = cw.toNat / 256 := by
  have := cw.isLt
  simp only [opcode, BitVec.extractLsb'_toNat, Nat.shiftRight_eq_div_pow]
  omega

theorem immediate_toNat (cw : CommandWord) : (immediate cw).toNat = cw.toNat % 256 := by
  simp [immediate, BitVec.extractLsb'_toNat]

theorem commandWord_toNat (op imm : Byte) : (commandWord op imm).toNat = op.toNat * 256 + imm.toNat := by
  rw [commandWord, BitVec.toNat_append, ← Nat.shiftLeft_add_eq_or_of_lt imm.isLt, Nat.shiftLeft_eq]

@[simp] theorem opcode_commandWord (op imm : Byte) : opcode (commandWord op imm) = op := by
  have := imm.isLt
  apply BitVec.eq_of_toNat_eq
  rw [opcode_toNat, commandWord_toNat]
  omega

@[simp] theorem immediate_commandWord (op imm : Byte) : immediate (commandWord op imm) = imm := by
  have := imm.isLt
  apply BitVec.eq_of_toNat_eq
  rw [immediate_toNat, commandWord_toNat]
  omega

/-- R70: a word is its opcode and its immediate. -/
@[simp] theorem commandWord_opcode_immediate (cw : CommandWord) :
    commandWord (opcode cw) (immediate cw) = cw := by
  apply BitVec.eq_of_toNat_eq
  rw [commandWord_toNat, opcode_toNat, immediate_toNat]
  omega

/-- Bits 7:2 of the immediate, which format S wants zero (R72). -/
def selectorPadding (cw : CommandWord) : BitVec 6 := cw.extractLsb' 2 6

theorem selectorPadding_toNat (cw : CommandWord) : (selectorPadding cw).toNat = (immediate cw).toNat / 4 := by
  rw [immediate_toNat]
  simp only [selectorPadding, BitVec.extractLsb'_toNat, Nat.shiftRight_eq_div_pow]
  omega

theorem selector_toNat (cw : CommandWord) : (selector cw).toNat = (immediate cw).toNat % 4 := by
  rw [immediate_toNat]
  simp only [selector, BitVec.extractLsb'_toNat, Nat.shiftRight_eq_div_pow]
  omega

theorem padding_append_toNat (pad : BitVec 6) (sel : BitVec 2) :
    (pad ++ sel).toNat = pad.toNat * 4 + sel.toNat := by
  rw [BitVec.toNat_append, ← Nat.shiftLeft_add_eq_or_of_lt sel.isLt, Nat.shiftLeft_eq]

theorem immediate_eq_append (cw : CommandWord) : immediate cw = selectorPadding cw ++ selector cw := by
  apply BitVec.eq_of_toNat_eq
  rw [padding_append_toNat, selectorPadding_toNat, selector_toNat]
  omega

@[simp] theorem selector_commandWord (op : Byte) (pad : BitVec 6) (sel : BitVec 2) :
    selector (commandWord op (pad ++ sel)) = sel := by
  have := sel.isLt
  apply BitVec.eq_of_toNat_eq
  rw [selector_toNat, immediate_commandWord, padding_append_toNat]
  omega

@[simp] theorem selectorPadding_commandWord (op : Byte) (pad : BitVec 6) (sel : BitVec 2) :
    selectorPadding (commandWord op (pad ++ sel)) = pad := by
  have := sel.isLt
  apply BitVec.eq_of_toNat_eq
  rw [selectorPadding_toNat, immediate_commandWord, padding_append_toNat]
  omega

/-- R72: the word an S-format encoding stands for, from the word's own fields. -/
theorem encodeS_selector {cw : CommandWord} (h : selectorPadding cw = 0#6) :
    encodeS (opcode cw) (selector cw) = .word cw := by
  rw [encodeS, ← h, ← immediate_eq_append, commandWord_opcode_immediate]

/-- R90, read off the fields of the word. -/
theorem illegalWord_eq_fields (cw : CommandWord) :
    illegalWord cw =
      if (opcode cw).toNat ∈ opcodesZ then immediate cw != 0#8
      else if (opcode cw).toNat ∈ opcodesB then false
      else if (opcode cw).toNat ∈ opcodesS then
        selectorPadding cw != 0#6 || (opcode cw == 0x30#8 && selector cw == 3#2)
      else true := by
  have himm : (immediate cw != 0#8) = (cw.toNat % 256 != 0) := by
    rw [← immediate_toNat, Bool.eq_iff_iff]
    simp [← BitVec.toNat_inj]
  have hsel : (selectorPadding cw != 0#6 || (opcode cw == 0x30#8 && selector cw == 3#2)) =
      (cw.toNat % 256 / 4 != 0 || (cw.toNat / 256 == 0x30 && cw.toNat % 256 == 3)) := by
    have hpad := selectorPadding_toNat cw
    have hlow := selector_toNat cw
    rw [← immediate_toNat, ← opcode_toNat, Bool.eq_iff_iff]
    simp only [bne_iff_ne, Bool.or_eq_true, Bool.and_eq_true, beq_iff_eq, ne_eq, ← BitVec.toNat_inj,
      BitVec.toNat_ofNat]
    omega
  rw [himm, hsel, opcode_toNat]
  rfl

theorem illegalWord_of_opcodeS {cw : CommandWord} (hS : (opcode cw).toNat ∈ opcodesS) :
    illegalWord cw = (selectorPadding cw != 0#6 || (opcode cw == 0x30#8 && selector cw == 3#2)) := by
  have hZB : ∀ op ∈ opcodesS, op ∉ opcodesZ ∧ op ∉ opcodesB := by decide
  obtain ⟨hZ, hB⟩ := hZB _ hS
  rw [illegalWord_eq_fields, if_neg hZ, if_neg hB, if_pos hS]

/-! ### What a word decodes to -/

/-- What a word may stand for (R71, R90): the command it encodes, if it is legal, and else its own illegal row. -/
inductive WordMeans (cw : CommandWord) : Instr → Prop
  | command {i : Instr} (hcmd : i.isCommand = true) (hwf : i.wellFormed = true) (henc : encode i = .word cw)
      (hlegal : illegalWord cw = false) : WordMeans cw i
  | illegal (hill : illegalWord cw = true) : WordMeans cw (.illegal cw)

namespace WordMeans

variable {cw : CommandWord} {op : Nat}

theorem of_formatZ {i : Instr} (hop : (opcode cw).toNat = op) (henc : encode i = encodeZ (BitVec.ofNat 8 op))
    (hcmd : i.isCommand = true) (hwf : i.wellFormed = true) (hZ : op ∈ opcodesZ) :
    WordMeans cw (formatZ cw i) := by
  subst hop
  have hill : illegalWord cw = (immediate cw != 0#8) := by rw [illegalWord_eq_fields, if_pos hZ]
  unfold formatZ
  split
  next himm =>
    refine .command hcmd hwf ?_ (by simp [hill, himm])
    rw [henc, BitVec.ofNat_toNat, BitVec.setWidth_eq, encodeZ, ← himm, commandWord_opcode_immediate]
  next himm => exact .illegal (by simpa [hill] using himm)

theorem of_formatB {f : Byte → Instr} (hop : (opcode cw).toNat = op)
    (henc : ∀ b, encode (f b) = encodeB (BitVec.ofNat 8 op) b)
    (hcmd : ∀ b, (f b).isCommand = true) (hwf : ∀ b, (f b).wellFormed = true)
    (hB : op ∈ opcodesB) : WordMeans cw (formatB cw f) := by
  subst hop
  have hZ : ∀ op ∈ opcodesB, op ∉ opcodesZ := by decide
  refine .command (hcmd _) (hwf _) ?_ (by rw [illegalWord_eq_fields, if_neg (hZ _ hB), if_pos hB])
  rw [formatB, henc, BitVec.ofNat_toNat, BitVec.setWidth_eq, encodeB, commandWord_opcode_immediate]

/-- Format S, for every word but TX.HEX with selector 3, which R90 (d) adds to the illegal ones. -/
theorem of_formatS {f : BitVec 2 → Instr} (hop : (opcode cw).toNat = op)
    (henc : ∀ sel, encode (f sel) = encodeS (BitVec.ofNat 8 op) sel)
    (hcmd : ∀ sel, (f sel).isCommand = true) (hwf : (f (selector cw)).wellFormed = true)
    (hS : op ∈ opcodesS) (hsel : op = 0x30 → selector cw ≠ 3#2) : WordMeans cw (formatS cw f) := by
  subst hop
  have hill := illegalWord_of_opcodeS hS
  unfold formatS
  split
  next hpad =>
    change selectorPadding cw = 0#6 at hpad
    refine .command (hcmd _) hwf ?_ ?_
    · rw [henc, BitVec.ofNat_toNat, BitVec.setWidth_eq, encodeS_selector hpad]
    · by_cases h30 : opcode cw = 0x30#8
      · simp [hill, hpad, hsel (by rw [h30]; rfl)]
      · simp [hill, hpad, h30]
  next hpad =>
    change ¬ selectorPadding cw = 0#6 at hpad
    exact .illegal (by simp [hill, hpad])

/-- TX.HEX: selector 3 is ill-formed just where R90 (d) makes the word illegal. -/
theorem of_formatTxHex (hop : (opcode cw).toNat = 0x30) : WordMeans cw (formatTxHex cw) := by
  unfold formatTxHex
  split
  next hsel =>
    have hop' : opcode cw = 0x30#8 := BitVec.eq_of_toNat_eq hop
    exact .illegal (by simp [illegalWord_of_opcodeS (cw := cw) (by rw [hop]; decide), hop', hsel])
  next hsel =>
    exact .of_formatS hop (fun _ => rfl) (fun _ => rfl) (by simpa [Instr.wellFormed] using hsel) (by decide)
      (fun _ => hsel)

theorem encode_eq {i : Instr} (h : WordMeans cw i) : encode i = .word cw := by
  cases h with
  | command _ _ henc _ => exact henc
  | illegal _ => rfl

theorem wellFormed {i : Instr} (h : WordMeans cw i) : i.wellFormed = true := by
  cases h with
  | command _ hwf _ _ => exact hwf
  | illegal hill => exact hill

theorem isCommand_or_illegal {i : Instr} (h : WordMeans cw i) : i.isCommand = true ∨ i = .illegal cw := by
  cases h with
  | command hcmd _ _ _ => exact .inl hcmd
  | illegal _ => exact .inr rfl

theorem eq_illegal_iff {i : Instr} (h : WordMeans cw i) : i = .illegal cw ↔ illegalWord cw = true := by
  cases h with
  | command hcmd _ _ hlegal =>
    refine ⟨?_, fun hill => by simp [hlegal] at hill⟩
    rintro rfl
    cases hcmd
  | illegal hill => exact ⟨fun _ => hill, fun _ => rfl⟩

end WordMeans

/-- R74: the opcode map gives every word the meaning R71 and R90 ask for. The cases are the rows of `decodeCommand` in
its order, grouped by format: Z, B, S, TX.HEX, and last the unassigned opcodes. -/
theorem decodeCommand_means (cw : CommandWord) : WordMeans cw (decodeCommand cw) := by
  unfold decodeCommand
  split
  case h_1 | h_2 | h_4 | h_5 | h_7 | h_12 | h_13 | h_14 | h_15 | h_16 | h_17 | h_18 | h_19 | h_20 | h_21
  | h_22 | h_23 | h_31 | h_32 | h_36 | h_37 | h_38 | h_39 | h_40 | h_41 =>
    exact .of_formatZ ‹_› rfl rfl rfl (by decide)
  case h_6 | h_8 | h_9 | h_10 | h_11 | h_24 | h_25 | h_26 | h_27 | h_28 | h_29 | h_35 | h_42 =>
    exact .of_formatB ‹_› (fun _ => rfl) (fun _ => rfl) (fun _ => rfl) (by decide)
  case h_3 | h_33 | h_34 =>
    exact .of_formatS ‹_› (fun _ => rfl) (fun _ => rfl) rfl (by decide) (fun h => absurd h (by decide))
  case h_30 => exact .of_formatTxHex ‹_›
  case h_43 =>
    refine .illegal ?_
    rw [illegalWord_eq_fields, if_neg (by simp_all [opcodesZ]), if_neg (by simp_all [opcodesB]),
      if_neg (by simp_all [opcodesS])]

theorem decodeCommand_eq_illegal_iff (cw : CommandWord) :
    decodeCommand cw = .illegal cw ↔ illegalWord cw = true :=
  (decodeCommand_means cw).eq_illegal_iff

/-! ### Decoding an encoding, format by format -/

/-- Format B: a row that reads its immediate gets back the byte that was written there (R73). -/
theorem decode_encodeB {op : Byte} {f : Byte → Instr}
    (hrow : ∀ cw, opcode cw = op → decodeCommand cw = formatB cw f) (b : Byte) :
    decode (encodeB op b) = .ok (f b) := by
  simp [encodeB, decode, hrow, formatB]

theorem formatS_commandWord (op : Byte) (sel : BitVec 2) (f : BitVec 2 → Instr) :
    formatS (commandWord op (0#6 ++ sel)) f = f sel := by
  have hpad : (commandWord op (0#6 ++ sel)).extractLsb' 2 6 = 0#6 := selectorPadding_commandWord op 0#6 sel
  rw [formatS, if_pos hpad, selector_commandWord]

/-- Format S: a row that reads its selector gets back the selector that was written there (R73). -/
theorem decode_encodeS {op : Byte} {f : BitVec 2 → Instr}
    (hrow : ∀ cw, opcode cw = op → decodeCommand cw = formatS cw f) (sel : BitVec 2) :
    decode (encodeS op sel) = .ok (f sel) := by
  rw [encodeS, decode, hrow _ (opcode_commandWord ..), formatS_commandWord]

/-- TX.HEX is a format-S row but for selector 3 (R90 d). -/
theorem decode_txHex {sel : BitVec 2} (hsel : sel ≠ 3) : decode (encode (.txHex sel)) = .ok (.txHex sel) := by
  have hrow : ∀ cw, opcode cw = 0x30 → decodeCommand cw = formatTxHex cw := fun cw hop => by
    rw [decodeCommand, hop]
    rfl
  rw [encode, encodeS, decode, hrow _ (opcode_commandWord ..), formatTxHex, selector_commandWord, if_neg hsel,
    formatS_commandWord]

/-! ### Raw pairs (R81, R82) -/

theorem decodePair_terminatorByte : ∀ k : BitVec 2, decodePair (terminatorByte k) = some (.wireTerm k) := by
  decide

theorem isTerminator_of_canonical {f : Byte} (hf : f &&& 0x60 = 0x40) : isTerminator f = false := by
  have hmask : ∀ k : BitVec 2, terminatorByte k &&& 0x60 ≠ 0x40 := by decide
  rw [Bool.eq_false_iff]
  intro hterm
  obtain ⟨k, rfl⟩ := (isTerminator_iff f).mp hterm
  exact hmask k hf

theorem decodePair_of_canonical {f : Byte} (hf : f &&& 0x60 = 0x40) : decodePair f = some (.wireEsc f) := by
  rw [decodePair, isTerminator_of_canonical hf, if_neg Bool.false_ne_true, if_pos hf]

/-- A raw pair that is a wire row is one of two: its follower is a terminator byte or a canonical escape. -/
theorem decodePair_eq_some {f : Byte} {i : Instr} (h : decodePair f = some i) :
    (∃ k, f = terminatorByte k ∧ i = .wireTerm k) ∨ (f &&& 0x60 = 0x40 ∧ i = .wireEsc f) := by
  cases hterm : isTerminator f with
  | true =>
    obtain ⟨k, rfl⟩ := (isTerminator_iff f).mp hterm
    rw [decodePair_terminatorByte, Option.some.injEq] at h
    exact .inl ⟨k, rfl, h.symm⟩
  | false =>
    by_cases hf : f &&& 0x60 = 0x40
    · rw [decodePair_of_canonical hf, Option.some.injEq] at h
      exact .inr ⟨hf, h.symm⟩
    · rw [decodePair, hterm, if_neg Bool.false_ne_true, if_neg hf] at h
      cases h

theorem decodeWire_pair (f : Byte) : decodeWire [zdle, f] = decodePair f := by
  simp [decodeWire, pfxHex, pfxBin16, pfxBin32, eolCrLfXon, eolCrLf, eolLf, zdle]

theorem decode_pair {f : Byte} {i : Instr} (h : decodePair f = some i) : decode (.wire [zdle, f]) = .ok i := by
  rw [decode, decodeWire_pair, h]

/-! ### Runs of pushes (R96) -/

/-- R96: RX.FEED is RX.PUSH of its bytes in order. -/
theorem execAll_map_rxPush (bytes : List Byte) (s : State) :
    execAll (bytes.map .rxPush) s = .next (feed bytes s) := by
  induction bytes generalizing s with
  | nil => rfl
  | cons b bytes ih => exact ih (pushReceived b s)

theorem exec_ibPush_of_room {b : Byte} {s : State}
    (hroom : ∀ cap, s.params.ibufCap = some cap → s.ibuf.length + 1 ≤ cap) :
    exec (.ibPush b) s = .next ((s.setIbuf (s.ibuf ++ [b])).finish .ok) := by
  have hnot : ¬ s.params.ibufCap = some s.ibuf.length := fun h => by
    have := hroom _ h
    omega
  have hfull : ¬ isFull s.ibuf.length s.params.ibufCap = true := by simpa [isFull] using hnot
  exact if_neg hfull

/-- R96: after IB.CLR or a push, IBUF takes byte after byte as long as they fit. -/
theorem execAll_map_ibPush (bytes l : List Byte) (s : State)
    (hroom : ∀ cap, s.params.ibufCap = some cap → l.length + bytes.length ≤ cap) :
    execAll (bytes.map .ibPush) ((s.setIbuf l).finish .ok) =
      .next ((s.setIbuf (l ++ bytes)).finish .ok) := by
  induction bytes generalizing l with
  | nil => rw [List.append_nil]; rfl
  | cons b bytes ih =>
    simp only [List.length_cons] at hroom
    have hpush : exec (.ibPush b) ((s.setIbuf l).finish .ok) =
        .next ((s.setIbuf (l ++ [b])).finish .ok) :=
      exec_ibPush_of_room fun cap hcap => by
        have := hroom cap hcap
        simp only [State.finish_ibuf, State.setIbuf_ibuf]
        omega
    have hrest : ∀ cap, s.params.ibufCap = some cap → (l ++ [b]).length + bytes.length ≤ cap :=
      fun cap hcap => by
        have := hroom cap hcap
        simp only [List.length_append, List.length_singleton]
        omega
    rw [List.map_cons, execAll_cons_of_next hpush, ih (l ++ [b]) hrest, List.append_assoc]
    rfl

/-! ### Runs of register writes: the last one stays -/

theorem State.setArg_finish_setArg_finish (s : State) (v w : BitVec 32) (c d : StatusCode) :
    (((s.setArg v).finish c).setArg w).finish d = (s.setArg w).finish d := rfl

theorem State.setHdr_finish_setHdr_finish (s : State) (v w : Header) (c d : StatusCode) :
    (((s.setHdr v).finish c).setHdr w).finish d = (s.setHdr w).finish d := rfl

/-! ### The lanes of ARG (R54) -/

/-- R54: writing the lane of another value copies the lane's eight bits of it and keeps every other bit. -/
theorem getLsbD_setLane_extractLsb' (n : Nat) (arg v : BitVec 32) {i : Nat} (hi : i < 32) :
    (setLane n arg (v.extractLsb' (8 * n) 8)).getLsbD i =
      if 8 * n ≤ i ∧ i < 8 * n + 8 then v.getLsbD i else arg.getLsbD i := by
  have hff : (0xFF#32).getLsbD (i - 8 * n) = decide (i - 8 * n < 8) := by
    rw [BitVec.getLsbD_ofNat, show 0xFF = 2 ^ 8 - 1 from rfl, Nat.testBit_two_pow_sub_one]
    exact (Bool.and_eq_right_iff_imp).mpr fun _ => decide_eq_true (by omega)
  simp only [setLane, BitVec.getLsbD_or, BitVec.getLsbD_and, BitVec.getLsbD_not, BitVec.getLsbD_shiftLeft,
    BitVec.getLsbD_setWidth, BitVec.getLsbD_extractLsb', hff, hi, decide_true, Bool.true_and]
  split
  next hlane =>
    have hlow : ¬ i < 8 * n := by omega
    have hbit : i - 8 * n < 8 := by omega
    have hword : i - 8 * n < 32 := by omega
    have hindex : 8 * n + (i - 8 * n) = i := by omega
    simp [hlow, hbit, hword, hindex]
  next hlane =>
    rcases not_and_or.mp hlane with hlow | hhigh
    · simp [Nat.lt_of_not_le hlow]
    · have hbit : ¬ i - 8 * n < 8 := by omega
      simp [hbit]

/-- The four lanes, written in order, make up the value they are cut from, whatever ARG held (R96). -/
theorem setLane_of_lanes (arg v : BitVec 32) :
    setLane 3 (setLane 2 (setLane 1 (setLane 0 arg (v.extractLsb' (8 * 0) 8)) (v.extractLsb' (8 * 1) 8))
      (v.extractLsb' (8 * 2) 8)) (v.extractLsb' (8 * 3) 8) = v := by
  ext i hi
  simp only [← BitVec.getLsbD_eq_getElem, getLsbD_setLane_extractLsb' _ _ _ hi]
  split_ifs
  case neg => omega
  all_goals rfl

/-! ### Wire rows (log 3) -/

theorem terminatorByte_plain : ∀ k : BitVec 2, isFlowControl (terminatorByte k) = false := by decide

/-- A flow-control byte is no canonical follower: its bits 6:5 are zero (R113, R82). -/
theorem isFlowControl_of_canonical {f : Byte} (hf : f &&& 0x60 = 0x40) : isFlowControl f = false := by
  rw [Bool.eq_false_iff]
  intro hfc
  simp only [isFlowControl, Bool.or_eq_true, beq_iff_eq] at hfc
  rcases hfc with ((rfl | rfl) | rfl) | rfl <;> exact absurd hf (by decide)

/-- With room for its two bytes, an arriving pair without flow control is appended as it is. -/
theorem feed_pair {z f : Byte} {s : State} (hz : isFlowControl z = false) (hf : isFlowControl f = false)
    (hroom : ∀ cap, s.params.rxbufCap = some cap → s.rxbuf.length + 2 ≤ cap) :
    feed [z, f] s = (s.setRxbuf (s.rxbuf ++ [z, f])).finish .ok := by
  rw [feed_with_room _ _ (List.cons_ne_nil _ _) hroom]
  simp [hz, hf]

/-! ### The obligations -/

/-- Settles O31: a command's operand stands in the field its format reads, an illegal word is kept whole, and a wire
row is a fixed pattern or a pair its follower tells apart. -/
theorem decodeEncodeAgree : Obligations.DecodeEncodeAgree := by
  intro i hwf
  cases i with
  | nop | rst | zencRst | ibClr | ibLdob | pack16 | unpack16 | pack32 | unpack32 | hexEnc | hexDec | crc16
  | crc32 | vfy16 | vfy32 | zenc | zdec | txBin16 | txBin32 | rxClr | rxTrim | rxHdr | rxSub16 | rxSub32
  | rxScan => rfl
  | ibPush b | argSet0 b | argSet1 b | argSet2 b | argSet3 b | zcls b | hdrSet0 b | hdrSet1 b | hdrSet2 b
  | hdrSet3 b | hdrSet4 b | rxPush b | rxSplice b =>
    exact decode_encodeB (fun cw hop => by rw [decodeCommand, hop]; rfl) b
  | cfg sel | txSub16 sel | txSub32 sel =>
    exact decode_encodeS (fun cw hop => by rw [decodeCommand, hop]; rfl) sel
  | txHex sel => exact decode_txHex (bne_iff_ne.mp hwf)
  | illegal cw => exact congrArg Except.ok ((decodeCommand_eq_illegal_iff cw).mpr hwf)
  | wirePfxHex | wirePfxBin16 | wirePfxBin32 | wireEol0 | wireEol1 | wireEol2 => rfl
  | wireTerm k => exact decode_pair (decodePair_terminatorByte k)
  | wireEsc f => exact decode_pair (decodePair_of_canonical (beq_iff_eq.mp hwf))

/-- Settles O26: decoding as illegal is R90, read off `decodeCommand_means`. -/
theorem illegalWordsRun : Obligations.IllegalWordsRun :=
  ⟨decodeCommand_eq_illegal_iff, fun _ _ => rfl⟩

/-- Settles O30: each of the words and patterns is decoded. -/
theorem writtenWordsDecode : Obligations.WrittenWordsDecode := by
  refine ⟨?_, ?_, ?_, ?_, ?_, ?_, ?_, ?_, ?_, ?_, ?_, ?_, ?_, ?_, ?_, ?_⟩ <;> decide

/-- Settles O32: every word stands for the command it encodes or for its own illegal row. -/
theorem everyWordHasOneMeaning : Obligations.EveryWordHasOneMeaning := fun cw =>
  have hmeans := decodeCommand_means cw
  ⟨hmeans.encode_eq, hmeans.wellFormed, hmeans.isCommand_or_illegal⟩

/-- Settles O33: six rows are fixed patterns, and the two raw pairs are told apart by their follower. -/
theorem wirePatternsAreUnambiguous : Obligations.WirePatternsAreUnambiguous := by
  intro bytes i h
  unfold decodeWire at h
  split_ifs at h with hb hb hb hb hb hb
  case neg =>
    split at h
    next z f _ =>
      split at h
      next hz =>
        subst hz
        rcases decodePair_eq_some h with ⟨k, rfl, rfl⟩ | ⟨hf, rfl⟩
        · exact ⟨rfl, rfl, rfl⟩
        · exact ⟨rfl, beq_iff_eq.mpr hf, rfl⟩
      next => cases h
    next => cases h
  all_goals
    cases h
    exact ⟨congrArg Code.wire hb.symm, rfl, rfl⟩

/-- Settles O27: every wire row is RX.FEED of its bytes, which with room appends those that are no flow control. -/
theorem wireRowsRun : Obligations.WireRowsRun := by
  unfold Obligations.WireRowsRun
  intro rows room
  have hexec : ∀ r ∈ rows, ∀ s, exec r.1 s = .next (feed r.2 s) := by
    simp only [rows, List.forall_mem_cons, List.not_mem_nil, false_imp_iff, implies_true, and_true]
    exact ⟨fun _ => rfl, fun _ => rfl, fun _ => rfl, fun _ => rfl, fun _ => rfl, fun _ => rfl⟩
  have hplain : ∀ r ∈ rows, r.2 ≠ [] ∧ r.2.filter (fun b => !isFlowControl b) = r.2.filter (· ≠ 0x11) := by
    decide
  refine ⟨?rowPushes, ?termPushes, ?escPushes, ?rowAppends, ?termAppends, ?escAppends⟩
  case rowPushes =>
    intro r hr s
    rw [hexec r hr, execAll_map_rxPush]
  case termPushes => exact fun k s => (execAll_map_rxPush [0x18, terminatorByte k] s).symm
  case escPushes => exact fun f s => (execAll_map_rxPush [0x18, f] s).symm
  case rowAppends =>
    intro r hr s hroom
    obtain ⟨hne, hfilter⟩ := hplain r hr
    rw [hexec r hr, feed_with_room r.2 s hne hroom, hfilter]
    rfl
  case termAppends =>
    exact fun k s hroom => congrArg Host.Outcome.next (feed_pair rfl (terminatorByte_plain k) hroom)
  case escAppends =>
    exact fun f s hf hroom => congrArg Host.Outcome.next (feed_pair rfl (isFlowControl_of_canonical hf) hroom)

/-- Settles O60: the three loads are runs of writes, and the two feeds are runs of RX.PUSH. -/
theorem pseudoInstructionsRun : Obligations.PseudoInstructionsRun := by
  refine ⟨?ibLoad, ?argLoad, ?hdrLoad, ?rxFeed, ?rxLoop⟩
  case ibLoad =>
    intro s bytes hfit
    have hclr : exec .ibClr s = .next ((s.setIbuf []).finish .ok) := rfl
    rw [expand, execAll_cons_of_next hclr, execAll_map_ibPush bytes [] s (by simpa using hfit)]
    rfl
  case argLoad =>
    intro s v
    have hlanes := setLane_of_lanes s.arg v
    simp only [expand, execAll, exec, execArgSet0, execArgSet1, execArgSet2, execArgSet3, State.done_eq,
      State.finish_arg, State.setArg_arg, State.setArg_finish_setArg_finish, hlanes]
    rfl
  case hdrLoad =>
    intro s t p0 p1 p2 p3
    simp only [expand, execAll, exec, execHdrSet0, execHdrSet1, execHdrSet2, execHdrSet3, execHdrSet4,
      State.done_eq, State.finish_hdr, State.setHdr_hdr, State.setHdr_finish_setHdr_finish]
    rfl
  case rxFeed => exact fun s bytes => execAll_map_rxPush bytes s
  case rxLoop => exact fun s fed => execAll_map_rxPush (s.txout.drop fed) s

end Sys2Proof.Machine

namespace Sys2Proof.Machine

/-! ### What stands in RXBUF (R113, R310) -/

/-- Bytes that go from RXBUF bring in no flow control. -/
theorem State.rxbufFiltered_of_suffix {s t : State} (hs : s.rxbufFiltered) (h : t.rxbuf <:+ s.rxbuf) :
    t.rxbufFiltered := fun b hb => hs b (h.subset hb)

/-- R114: the one way into RXBUF drops the flow-control bytes. -/
theorem pushReceived_rxbufFiltered (b : Byte) {s : State} (hs : s.rxbufFiltered) :
    (pushReceived b s).rxbufFiltered := by
  rcases pushReceived_cases b s with ⟨-, h⟩ | ⟨-, -, h⟩ | ⟨hb, -, h⟩ <;> rw [h]
  · exact hs
  · exact hs
  · exact List.forall_mem_append.mpr ⟨hs, List.forall_mem_singleton.mpr hb⟩

theorem feed_rxbufFiltered (bytes : List Byte) {s : State} (hs : s.rxbufFiltered) :
    (feed bytes s).rxbufFiltered := by
  induction bytes generalizing s with
  | nil => exact hs
  | cons b bytes ih => exact ih (pushReceived_rxbufFiltered b hs)

/-- What appends to RXBUF is RX.FEED of some bytes (R96, log 3). -/
theorem exec_eq_feed {i : Instr} (hi : appendsRxbuf i = true) (s : State) :
    ∃ bytes, exec i s = .next (feed bytes s) := by
  cases i with
  | rxPush b => exact ⟨[b], rfl⟩
  | wirePfxHex | wirePfxBin16 | wirePfxBin32 | wireEol0 | wireEol1 | wireEol2 | wireTerm | wireEsc =>
    exact ⟨_, rfl⟩
  | _ => cases hi

/-- Any other instruction leaves RXBUF alone, empties it or takes from its front (R35). -/
theorem exec_rxbuf_suffix {i : Instr} {s t : State} (hi : ¬ appendsRxbuf i = true)
    (h : exec i s = .next t) : t.rxbuf <:+ s.rxbuf := by
  by_cases hempty : i = .rst ∨ i = .rxClr
  · rcases hempty with rfl | rfl <;> cases h <;> exact List.nil_suffix
  · obtain ⟨hrst, hclr⟩ := not_or.mp hempty
    have hw := exec_writes hrst h
    rcases hw.rxbuf with hkept | hcleared | hconsumes | happends
    · exact hkept ▸ List.suffix_rfl
    · exact absurd hcleared hclr
    · exact hw.consumed hconsumes
    · exact absurd happends hi

theorem exec_rxbufFiltered {i : Instr} {s t : State} (hs : s.rxbufFiltered) (h : exec i s = .next t) :
    t.rxbufFiltered := by
  by_cases hi : appendsRxbuf i = true
  · obtain ⟨bytes, hfeed⟩ := exec_eq_feed hi s
    cases h.symm.trans hfeed
    exact feed_rxbufFiltered bytes hs
  · exact State.rxbufFiltered_of_suffix hs (exec_rxbuf_suffix hi h)

/-! ### When a buffer has no room (R60) -/

theorem isFull_iff {len : Nat} {cap : Option Nat} : isFull len cap = true ↔ cap = some len :=
  decide_eq_true_iff

theorem exceeds_iff {len : Nat} {cap : Option Nat} :
    exceeds len cap = true ↔ ∃ c, cap = some c ∧ c < len := by
  cases cap <;> simp [exceeds]

/-- The flow-control set, byte by byte (R113). -/
theorem isFlowControl_iff {b : Byte} :
    isFlowControl b = true ↔ b = 0x11 ∨ b = 0x13 ∨ b = 0x91 ∨ b = 0x93 := by
  simp only [isFlowControl, Bool.or_eq_true, beq_iff_eq, or_assoc]

section
variable {b : Byte} {s : State}

theorem pushReceived_of_flowControl (hb : isFlowControl b = true) : pushReceived b s = s.finish .ok :=
  if_pos hb

theorem pushReceived_of_full (hb : ¬ isFlowControl b = true)
    (hfull : s.params.rxbufCap = some s.rxbuf.length) : pushReceived b s = s.finish .eOverflow :=
  (if_neg hb).trans (if_pos (isFull_iff.mpr hfull))

theorem pushReceived_of_room (hb : ¬ isFlowControl b = true)
    (hroom : s.params.rxbufCap ≠ some s.rxbuf.length) :
    pushReceived b s = (s.setRxbuf (s.rxbuf ++ [b])).finish .ok :=
  (if_neg hb).trans (if_neg (mt isFull_iff.mp hroom))

end

/-! ### Words with an operand (R70, R72) -/

/-- A command word is its bare opcode with the immediate or-ed in. -/
theorem commandWord_eq_or (op imm : Byte) : commandWord op imm = commandWord op 0#8 ||| imm.setWidth 16 := by
  have hwidth : imm.toNat % 2 ^ 16 = imm.toNat := Nat.mod_eq_of_lt (imm.isLt.trans (by decide))
  apply BitVec.eq_of_toNat_eq
  rw [BitVec.toNat_or, BitVec.toNat_setWidth, hwidth, commandWord, commandWord, BitVec.toNat_append,
    BitVec.toNat_append, BitVec.toNat_zero, Nat.or_zero]

/-- The decoder gives back the well-formed instruction a word encodes. -/
theorem decodeCommand_of_encode {i : Instr} {cw : CommandWord} (hwf : i.wellFormed = true)
    (henc : encode i = .word cw) : decodeCommand cw = i := by
  have hdec := decodeEncodeAgree i hwf
  rw [henc] at hdec
  exact Except.ok.inj hdec

/-- Format B, as the rules write its words: the opcode with the byte operand or-ed in (R73). -/
theorem decodeCommand_or_byte {op : Byte} {f : Byte → Instr} (henc : ∀ b, encode (f b) = encodeB op b)
    (hwf : ∀ b, (f b).wellFormed = true) (b : Byte) :
    decodeCommand (commandWord op 0#8 ||| b.setWidth 16) = f b := by
  refine decodeCommand_of_encode (hwf b) ?_
  rw [henc, encodeB, commandWord_eq_or]

/-- Format S, as the rules write its words: the opcode with the selector or-ed in (R73). -/
theorem decodeCommand_or_selector {op : Byte} {f : BitVec 2 → Instr}
    (henc : ∀ sel, encode (f sel) = encodeS op sel) (hwf : ∀ sel, (f sel).wellFormed = true)
    (sel : BitVec 2) : decodeCommand (commandWord op 0#8 ||| sel.setWidth 16) = f sel := by
  have hsel : (0#6 ++ sel).setWidth 16 = sel.setWidth 16 := by
    apply BitVec.eq_of_toNat_eq
    rw [BitVec.toNat_setWidth, padding_append_toNat, BitVec.toNat_zero, Nat.zero_mul, Nat.zero_add,
      BitVec.toNat_setWidth]
  refine decodeCommand_of_encode (hwf sel) ?_
  rw [henc, encodeS, commandWord_eq_or, hsel]

/-- A format-S word with bits 7:2 of its immediate not zero is illegal (R90 c). -/
theorem decodeCommand_of_padding {cw : CommandWord} (hS : (opcode cw).toNat ∈ opcodesS)
    (hpad : selectorPadding cw ≠ 0#6) : decodeCommand cw = .illegal cw := by
  rw [decodeCommand_eq_illegal_iff, illegalWord_of_opcodeS hS]
  simp [hpad]

/-! ### The lowest lane of ARG (R108) -/

/-- Lane 0 stands where its byte does, so nothing is shifted. -/
theorem setLane_zero (arg : BitVec 32) (b : Byte) :
    setLane 0 arg b = (arg &&& 0xFFFFFF00) ||| b.setWidth 32 := by
  simp only [setLane, Nat.mul_zero, BitVec.shiftLeft_zero]
  rfl

/-! ### The obligations -/

/-- Settles O44: what arrives is filtered, and nothing else adds to RXBUF; bytes that are no wire pattern arrive as
a wire row's do (log 3). -/
theorem stepKeepsRxbufFiltered : Obligations.StepKeepsRxbufFiltered := by
  intro s t hs hstep
  rcases step_cases s with ⟨-, h⟩ | ⟨rest, -, h⟩ | ⟨c, i, rest, -, -, h⟩ | ⟨bytes, rest, -, -, h⟩ <;>
    rw [h] at hstep
  · cases hstep
    exact hs
  · cases hstep
    exact nofun
  · have hrest : (s.withPending rest).rxbufFiltered := hs
    exact exec_rxbufFiltered hrest hstep
  · cases hstep
    have hrest : (s.withPending rest).rxbufFiltered := hs
    exact feed_rxbufFiltered bytes hrest

/-- Settles O1: the words decode, and each command is one write and STATUS. -/
theorem nopAndEncoderResetRun : Obligations.NopAndEncoderResetRun :=
  ⟨by decide, fun _ => rfl, by decide, fun _ => rfl⟩

/-- Settles O2: padding in the immediate is R90 (c), which leaves E_ILLEGAL alone. -/
theorem cfgCommandRuns : Obligations.CfgCommandRuns := by
  refine ⟨decodeCommand_or_selector (op := 0x02) (fun _ => rfl) (fun _ => rfl), fun _ _ => rfl,
    fun _ => ⟨rfl, rfl⟩, fun cw s hop hpad => ?illegal⟩
  case illegal =>
    have hS : (opcode cw).toNat ∈ opcodesS := by
      change (cw.extractLsb' 8 8).toNat ∈ opcodesS
      rw [hop]
      decide
    rw [decodeCommand_of_padding hS hpad]
    rfl

/-- Settles O3: the reset values of R42 are the fields of `Block.reset`, which both states hold. -/
theorem resetRestoresEveryField : Obligations.ResetRestoresEveryField := by
  unfold Obligations.ResetRestoresEveryField
  intro isReset
  have hblock : ∀ t : State, t.toBlock = Block.reset → isReset t := by
    intro t ht
    simp [isReset, ht, Block.reset, Header.zero, CrcBytes.zero]
  exact ⟨hblock _ rfl, by decide, fun s => ⟨s.resetBlock, rfl, hblock _ rfl⟩⟩

/-- Settles O4: the tests of IB.PUSH and IB.LDOB, read as statements about the capacity. -/
theorem operandBufferCommandsRun : Obligations.OperandBufferCommandsRun := by
  refine ⟨by decide, fun _ => rfl, decodeCommand_or_byte (op := 0x09) (fun _ => rfl) (fun _ => rfl),
    fun b s hroom => ?pushed, fun b s hfull => ?refused, by decide, fun s hfits => ?loaded,
    fun s cap hcap hlong => ?tooLong⟩
  case pushed => exact if_neg (mt isFull_iff.mp hroom)
  case refused => exact if_pos (isFull_iff.mpr hfull)
  case loaded =>
    refine if_neg fun hexceeds => ?_
    obtain ⟨cap, hcap, hlong⟩ := exceeds_iff.mp hexceeds
    exact (hfits cap hcap).not_gt hlong
  case tooLong => exact if_pos (exceeds_iff.mpr ⟨cap, hcap, hlong⟩)

/-- Settles O5: a lane's mask is the printed constant, and its shift the printed one. -/
theorem argLanesRun : Obligations.ArgLanesRun := by
  refine ⟨fun b => ⟨?_, ?_, ?_, ?_⟩, fun b s => ⟨?_, rfl, rfl, rfl⟩⟩
  · exact decodeCommand_or_byte (op := 0x0C) (fun _ => rfl) (fun _ => rfl) b
  · exact decodeCommand_or_byte (op := 0x0D) (fun _ => rfl) (fun _ => rfl) b
  · exact decodeCommand_or_byte (op := 0x0E) (fun _ => rfl) (fun _ => rfl) b
  · exact decodeCommand_or_byte (op := 0x0F) (fun _ => rfl) (fun _ => rfl) b
  · exact congrArg (fun v => Host.Outcome.next (s.setArg v).done) (setLane_zero s.arg b)

/-- Settles O6: the words are format B, and each command writes its byte of HDR and STATUS. -/
theorem headerBytesRun : Obligations.HeaderBytesRun := by
  refine ⟨fun b => ⟨?_, ?_, ?_, ?_, ?_⟩, fun b s => ⟨rfl, rfl, rfl, rfl, rfl⟩⟩
  · exact decodeCommand_or_byte (op := 0x28) (fun _ => rfl) (fun _ => rfl) b
  · exact decodeCommand_or_byte (op := 0x29) (fun _ => rfl) (fun _ => rfl) b
  · exact decodeCommand_or_byte (op := 0x2A) (fun _ => rfl) (fun _ => rfl) b
  · exact decodeCommand_or_byte (op := 0x2B) (fun _ => rfl) (fun _ => rfl) b
  · exact decodeCommand_or_byte (op := 0x2C) (fun _ => rfl) (fun _ => rfl) b

/-- Settles O7: the three ways a byte arrives are told apart by the flow-control set and the capacity. -/
theorem receiveBufferCommandsRun : Obligations.ReceiveBufferCommandsRun := by
  unfold Obligations.ReceiveBufferCommandsRun
  intro fc
  have hpass : ∀ {b}, ¬ fc b → ¬ isFlowControl b = true := fun hb => mt isFlowControl_iff.mp hb
  refine ⟨decodeCommand_or_byte (op := 0x40) (fun _ => rfl) (fun _ => rfl), fun b s hb => ?dropped,
    fun b s hb hfull => ?refused, fun b s hb hroom => ?appended, by decide, fun _ => rfl⟩
  case dropped => exact congrArg Host.Outcome.next (pushReceived_of_flowControl (isFlowControl_iff.mpr hb))
  case refused => exact congrArg Host.Outcome.next (pushReceived_of_full (hpass hb) hfull)
  case appended => exact congrArg Host.Outcome.next (pushReceived_of_room (hpass hb) hroom)

end Sys2Proof.Machine

namespace Sys2Proof.Machine

/-! ### Packing and unpacking (R120 to R127) -/

theorem unpackU16be_pair (a b : Byte) : unpackU16be [a, b] = some (a.toNat * 256 + b.toNat) := rfl

theorem unpackU32le_quad (a b c d : Byte) :
    unpackU32le [a, b, c, d] =
      some (a.toNat + b.toNat * 2 ^ 8 + c.toNat * 2 ^ 16 + d.toNat * 2 ^ 24) := rfl

/-- R122: only two bytes are a `u16`. -/
theorem unpackU16be_of_length_ne {s : List Byte} (h : s.length ≠ 2) : unpackU16be s = none := by
  unfold unpackU16be
  split
  · exact absurd rfl h
  · rfl

/-- R126: only four bytes are a `u32`. -/
theorem unpackU32le_of_length_ne {s : List Byte} (h : s.length ≠ 4) : unpackU32le s = none := by
  unfold unpackU32le
  split
  · exact absurd rfl h
  · rfl

theorem exec_pack16_of_lt {s : State} (h : 0xFFFF < s.arg.toNat) :
    exec .pack16 s = .next (s.finish .eRange) := by
  have hrange : packU16be s.arg.toNat = none := if_pos h
  dsimp only [exec, execPack16]
  rw [hrange]
  rfl

/-- Stated for a variable `v`: comparing two whole states with a sum of bytes in ARG would have the kernel
compute that sum. -/
theorem State.setArg_finish_ok (s : State) (v : BitVec 32) :
    (s.setArg v).finish .ok = { s with arg := v, status := 0x00 } := rfl

/-- R123, by the outcome of unpacking. -/
theorem exec_unpack16_of_eq {s : State} {r : Option Nat} (h : unpackU16be s.ibuf = r) :
    exec .unpack16 s =
      .next (r.elim (s.finish .eLen) fun v => (s.setArg (BitVec.ofNat 32 v)).finish .ok) := by
  dsimp only [exec, execUnpack16]
  rw [h]
  cases r <;> rfl

/-- R127, by the outcome of unpacking. -/
theorem exec_unpack32_of_eq {s : State} {r : Option Nat} (h : unpackU32le s.ibuf = r) :
    exec .unpack32 s =
      .next (r.elim (s.finish .eLen) fun v => (s.setArg (BitVec.ofNat 32 v)).finish .ok) := by
  dsimp only [exec, execUnpack32]
  rw [h]
  cases r <;> rfl

/-! ### Bytes as pairs of nibbles (R128, R130) -/

/-- R128: encoding takes a byte apart into its nibbles. -/
theorem hexEncode_append_nibbles (x y : BitVec 4) (s : List Byte) :
    hexEncode ((x ++ y) :: s) = hexDigit x :: hexDigit y :: hexEncode s := by
  rw [hexEncode_cons, BitVec.extractLsb'_append_eq_left, BitVec.extractLsb'_append_eq_right]

/-- R130: decoding puts the values of two digits together. -/
theorem ofNat_nibbles (x y : BitVec 4) : BitVec.ofNat 8 (x.toNat * 16 + y.toNat) = x ++ y := by
  apply BitVec.eq_of_toNat_eq
  rw [BitVec.toNat_append, ← Nat.shiftLeft_add_eq_or_of_lt y.isLt, Nat.shiftLeft_eq, BitVec.toNat_ofNat]
  omega

theorem hexDecode_hexDigits (x y : BitVec 4) (h : List Byte) :
    hexDecode (hexDigit x :: hexDigit y :: h) = (hexDecode h).map ((x ++ y) :: ·) := by
  simp only [hexDecode, hexValue_hexDigit, ← ofNat_nibbles]
  cases hexDecode h <;> rfl

/-- R130: a byte with a value is the digit the encoder writes for that value. -/
theorem eq_hexDigit_of_hexValue :
    ∀ c : Byte, ∀ v ∈ hexValue c, ∃ x : BitVec 4, c = hexDigit x ∧ v = x.toNat := by decide +kernel

/-- R130: what decodes to something begins with two digits. -/
theorem hexDecode_cons_cons_eq_some {c d : Byte} {h out : List Byte}
    (hd : hexDecode (c :: d :: h) = some out) :
    ∃ x y rest, c = hexDigit x ∧ d = hexDigit y ∧ hexDecode h = some rest ∧
      out = (x ++ y) :: rest := by
  unfold hexDecode at hd
  split at hd
  next hcv hdv hrest =>
    obtain ⟨x, rfl, rfl⟩ := eq_hexDigit_of_hexValue c _ hcv
    obtain ⟨y, rfl, rfl⟩ := eq_hexDigit_of_hexValue d _ hdv
    cases hd
    exact ⟨x, y, _, rfl, rfl, hrest, by rw [ofNat_nibbles]⟩
  next => cases hd

/-! ### The two directions of the hex codec (R133) -/

theorem hexDecode_hexEncode (s : List Byte) : hexDecode (hexEncode s) = some s := by
  induction s with
  | nil => rfl
  | cons b s ih =>
    have hnibbles : b.extractLsb' 4 4 ++ b.extractLsb' 0 4 = b := BitVec.extractLsb'_append_extractLsb'
    rw [hexEncode_cons, hexDecode_hexDigits, ih, Option.map_some, hnibbles]

theorem hexEncode_of_hexDecode : ∀ {h s : List Byte}, hexDecode h = some s → hexEncode s = h
  | [], s, hd => by cases hd; rfl
  | [_], s, hd => by cases hd
  | c :: d :: h, s, hd => by
    obtain ⟨x, y, rest, rfl, rfl, hrest, rfl⟩ := hexDecode_cons_cons_eq_some hd
    rw [hexEncode_append_nibbles, hexEncode_of_hexDecode hrest]

/-! ### What spells a sequence (R128, R130) -/

theorem hexDigit_mem : ∀ x : BitVec 4, hexDigit x ∈ hexDigits := by decide

theorem mem_hexDigits_of_mem_hexEncode {s : List Byte} : ∀ c ∈ hexEncode s, c ∈ hexDigits := by
  induction s with
  | nil => exact nofun
  | cons b s ih =>
    rw [hexEncode_cons, List.forall_mem_cons, List.forall_mem_cons]
    exact ⟨hexDigit_mem _, hexDigit_mem _, ih⟩

/-- R128, with the nibbles as quotient and remainder. -/
theorem hexEncode_eq_flatMap (s : List Byte) :
    hexEncode s = s.flatMap fun b => [hexDigits.getD (b.toNat / 16) 0, hexDigits.getD (b.toNat % 16) 0] := by
  induction s with
  | nil => rfl
  | cons b s ih =>
    have hhigh : (b.extractLsb' 4 4).toNat = b.toNat / 16 := by
      rw [BitVec.extractLsb'_toNat, Nat.shiftRight_eq_div_pow]
      omega
    have hlow : (b.extractLsb' 0 4).toNat = b.toNat % 16 := by
      rw [BitVec.extractLsb'_toNat, Nat.shiftRight_zero]
    rw [hexEncode_cons, hexDigit, hexDigit, hhigh, hlow, ih, List.flatMap_cons]
    rfl

/-- R130: BAD_HEX for an odd length and for a byte that is no digit. -/
theorem hexDecode_eq_none {h : List Byte} (hbad : h.length % 2 = 1 ∨ ∃ c ∈ h, c ∉ hexDigits) :
    hexDecode h = none := by
  refine Option.eq_none_iff_forall_ne_some.mpr fun s hd => ?_
  have hspelled : hexEncode s = h := hexEncode_of_hexDecode hd
  subst hspelled
  rcases hbad with hodd | ⟨c, hc, hno⟩
  · rw [hexEncode_length] at hodd
    omega
  · exact hno (mem_hexDigits_of_mem_hexEncode c hc)

/-- R131, by the outcome of decoding. -/
theorem exec_hexDec_of_eq {s : State} {r : Option (List Byte)} (h : hexDecode s.ibuf = r) :
    exec .hexDec s = .next (r.elim (s.finish .eHexfmt) fun out => (s.setObuf out).finish .ok) := by
  dsimp only [exec, execHexDec]
  rw [h]
  cases r <;> rfl

/-! ### The obligations -/

/-- Settles O10: the spelling is `hexEncode`, and HEX.DEC is its inverse, so what it accepts is a
spelling: of even length and made of digits. -/
theorem hexCommandsRun : Obligations.HexCommandsRun := by
  unfold Obligations.HexCommandsRun
  intro digits spelled
  have hspelled : ∀ r, hexEncode r = spelled r := hexEncode_eq_flatMap
  refine ⟨by decide, by decide, fun s => ?encoded, fun s r hr => ?decoded, fun s hbad => ?refused⟩
  case encoded => exact hspelled s.ibuf ▸ rfl
  case decoded =>
    have hdec : hexDecode s.ibuf = some r := by rw [hr, ← hspelled, hexDecode_hexEncode]
    exact exec_hexDec_of_eq hdec
  case refused => exact exec_hexDec_of_eq (hexDecode_eq_none hbad)

/-- Settles O48: a byte is its two nibbles, and each digit is the one of its value. -/
theorem hexRoundTrips : Obligations.HexRoundTrips :=
  ⟨hexDecode_hexEncode, fun _ _ => hexEncode_of_hexDecode⟩

/-- Settles O8: within range the packer writes the two low bytes, above it there is nothing to write. -/
theorem packCommandsRun : Obligations.PackCommandsRun :=
  ⟨by decide, by decide, fun _ => exec_pack16_of_le, fun _ => exec_pack16_of_lt, fun _ => rfl⟩

/-- Settles O9: the length decides between the value and E_LEN. -/
theorem unpackCommandsRun : Obligations.UnpackCommandsRun := by
  refine ⟨by decide, by decide, fun s a b hs => ?two, fun s hs => ?not_two, fun s a b c d hs => ?four,
    fun s hs => ?not_four⟩
  case two =>
    rw [exec_unpack16_of_eq (hs ▸ unpackU16be_pair a b), Option.elim_some, State.setArg_finish_ok]
  case not_two => exact exec_unpack16_of_eq (unpackU16be_of_length_ne hs)
  case four =>
    rw [exec_unpack32_of_eq (hs ▸ unpackU32le_quad a b c d), Option.elim_some, State.setArg_finish_ok]
  case not_four => exact exec_unpack32_of_eq (unpackU32le_of_length_ne hs)

end Sys2Proof.Machine

namespace Sys2Proof.Machine

/-! ### The CRC-16 shift register is linear (R140, R141)

Every CRC-16 form of R142 and R143 is the shift `t16Shift` with the message exclusive-ored in at some place. The
shift is linear over exclusive-or, so a byte may enter before the shifts or after them. -/

/-- What the bit shifted out brings back into the register (R140). -/
def feedback16 (out : Bool) : BitVec 16 := if out then 0x1021 else 0

theorem feedback16_xor : ∀ x y : Bool, feedback16 (x ^^ y) = feedback16 x ^^^ feedback16 y := by decide

theorem t16Shift_eq (r : BitVec 16) : t16Shift r = r <<< 1 ^^^ feedback16 (r.getLsbD 15) := by
  rw [t16Shift, feedback16]
  split
  case isTrue => rfl
  case isFalse => exact BitVec.xor_zero.symm

theorem t16Shift_xor (x y : BitVec 16) : t16Shift (x ^^^ y) = t16Shift x ^^^ t16Shift y := by
  rw [t16Shift_eq, t16Shift_eq, t16Shift_eq, BitVec.getLsbD_xor, feedback16_xor, BitVec.shiftLeft_xor_distrib]
  ac_rfl

theorem t16Shift_iterate_xor (n : Nat) (x y : BitVec 16) :
    t16Shift^[n] (x ^^^ y) = t16Shift^[n] x ^^^ t16Shift^[n] y :=
  Function.Semiconj₂.iterate t16Shift_xor n x y

theorem t16Shift_iterate_zero (n : Nat) : t16Shift^[n] 0 = 0 := Function.iterate_fixed (by decide) n

/-- R141: the table entry is eight shifts of the index in the high byte. -/
theorem t16_eq_iterate (i : Byte) : t16 i = t16Shift^[8] (i.setWidth 16 <<< 8) := rfl

/-- A byte in the low half reaches the high half without feedback: the top bit is clear before each shift. -/
theorem t16Shift_iterate_setWidth (b : Byte) {n : Nat} (h : n ≤ 8) :
    t16Shift^[n] (b.setWidth 16) = b.setWidth 16 <<< n := by
  induction n with
  | zero => rw [Function.iterate_zero_apply, BitVec.shiftLeft_zero]
  | succ n ih =>
    have htop : (b.setWidth 16 <<< n).getLsbD 15 = false := by
      have : 8 ≤ 15 - n := by omega
      simp [BitVec.getLsbD_of_ge b (15 - n) this]
    rw [Function.iterate_succ_apply', ih (by omega), t16Shift_eq, htop, BitVec.shiftLeft_add]
    exact BitVec.xor_zero

/-- The accumulator is its high byte over its low byte. -/
theorem high_xor_low (acc : BitVec 16) :
    (acc.extractLsb' 8 8).setWidth 16 <<< 8 ^^^ (acc.extractLsb' 0 8).setWidth 16 = acc := by
  ext i hi
  grind

theorem low_shiftLeft (acc : BitVec 16) : (acc.extractLsb' 0 8).setWidth 16 <<< 8 = acc <<< 8 := by
  ext i hi
  grind

/-- Eight shifts of the register are one look-up of the table. -/
theorem t16Shift_iterate_eight (acc : BitVec 16) :
    t16Shift^[8] acc = t16 (acc.extractLsb' 8 8) ^^^ acc <<< 8 := by
  calc t16Shift^[8] acc
      = t16Shift^[8] ((acc.extractLsb' 8 8).setWidth 16 <<< 8 ^^^ (acc.extractLsb' 0 8).setWidth 16) := by
        rw [high_xor_low]
    _ = t16 (acc.extractLsb' 8 8) ^^^ acc <<< 8 := by
        rw [t16Shift_iterate_xor, ← t16_eq_iterate, t16Shift_iterate_setWidth _ le_rfl, low_shiftLeft]

/-! ### The augmented form and the shift register (R142, R143) -/

/-- R142, augmented form: the byte enters behind eight shifts. -/
theorem crc16Step_eq (acc : BitVec 16) (b : Byte) : crc16Step acc b = t16Shift^[8] acc ^^^ b.setWidth 16 := by
  rw [crc16Step, t16Shift_iterate_eight]

/-- The message bit goes to the place the shift leaves empty. -/
theorem shiftLeft_or_bit (acc : BitVec 16) (bit : Bool) :
    acc <<< 1 ||| (BitVec.ofBool bit).setWidth 16 = acc <<< 1 ^^^ (BitVec.ofBool bit).setWidth 16 := by
  ext i hi
  grind

/-- R143: one clock is one shift with the message bit exclusive-ored in. -/
theorem crc16Clock_eq (acc : BitVec 16) (bit : Bool) :
    crc16Clock acc bit = t16Shift acc ^^^ (BitVec.ofBool bit).setWidth 16 := by
  rw [crc16Clock, t16Shift, shiftLeft_or_bit]
  split
  case isTrue => ac_rfl
  case isFalse => rfl

theorem foldl_crc16Clock_xor (bits : List Bool) (x y : BitVec 16) :
    bits.foldl crc16Clock (x ^^^ y) = t16Shift^[bits.length] x ^^^ bits.foldl crc16Clock y := by
  induction bits generalizing x y with
  | nil => rfl
  | cons bit bits ih =>
    rw [List.foldl_cons, List.foldl_cons, crc16Clock_eq, crc16Clock_eq, t16Shift_xor, BitVec.xor_assoc, ih]
    rfl

/-- R143: eight bits clocked into a zero register, before any feedback, are the byte. -/
theorem foldl_crc16Clock_zero_byte : ∀ b : Byte, (bitsMsbFirst b).foldl crc16Clock 0 = b.setWidth 16 := by
  decide +kernel

/-- R143: the eight clocks of a byte are one step of the augmented form. -/
theorem foldl_crc16Clock_byte (acc : BitVec 16) (b : Byte) :
    (bitsMsbFirst b).foldl crc16Clock acc = crc16Step acc b := by
  calc (bitsMsbFirst b).foldl crc16Clock acc
      = (bitsMsbFirst b).foldl crc16Clock (acc ^^^ 0) := by rw [show acc ^^^ 0 = acc from BitVec.xor_zero]
    _ = t16Shift^[8] acc ^^^ (bitsMsbFirst b).foldl crc16Clock 0 := foldl_crc16Clock_xor ..
    _ = crc16Step acc b := by rw [foldl_crc16Clock_zero_byte, crc16Step_eq]

theorem crc16v_eq_serial (s : List Byte) : crc16v s = crc16Serial s := by
  rw [crc16v, crc16Serial, List.foldl_flatMap]
  simp only [foldl_crc16Clock_byte]

/-! ### The non-augmented form (R142, R143) -/

/-- One byte of the non-augmented form. -/
def crc16DirectStep (acc : BitVec 16) (b : Byte) : BitVec 16 := t16 (acc.extractLsb' 8 8 ^^^ b) ^^^ (acc <<< 8)

theorem crc16Direct_eq_foldl (s : List Byte) : crc16Direct s = s.foldl crc16DirectStep 0 := rfl

/-- R142, non-augmented form: the byte enters ahead of eight shifts, in the high byte. -/
theorem crc16DirectStep_eq (acc : BitVec 16) (b : Byte) :
    crc16DirectStep acc b = t16Shift^[8] (acc ^^^ b.setWidth 16 <<< 8) := by
  rw [crc16DirectStep, t16_eq_iterate, BitVec.setWidth_xor, BitVec.shiftLeft_xor_distrib, t16Shift_iterate_xor,
    t16Shift_iterate_xor, t16Shift_iterate_eight acc, t16_eq_iterate]
  ac_rfl

/-- R142: a zero byte of the augmentation is eight shifts. -/
theorem crc16Step_zero (acc : BitVec 16) : crc16Step acc 0x00 = t16Shift^[8] acc :=
  (crc16Step_eq acc 0x00).trans BitVec.xor_zero

/-- The two zero bytes of the augmentation are sixteen shifts after the message. -/
theorem crc16v_eq_iterate (s : List Byte) : crc16v s = t16Shift^[16] (s.foldl crc16Step 0) := by
  rw [crc16v, List.foldl_append, List.foldl_cons, List.foldl_cons, List.foldl_nil, crc16Step_zero, crc16Step_zero]
  exact (Function.iterate_add_apply t16Shift 8 8 _).symm

/-- Sixteen shifts turn a step of the augmented form into one of the non-augmented form: the first eight of them
take the byte from where it entered to the high byte. -/
theorem crc16DirectStep_t16Shift_iterate (acc : BitVec 16) (b : Byte) :
    crc16DirectStep (t16Shift^[16] acc) b = t16Shift^[16] (crc16Step acc b) := by
  rw [crc16Step_eq, crc16DirectStep_eq, t16Shift_iterate_xor, t16Shift_iterate_xor,
    ← t16Shift_iterate_setWidth b le_rfl, ← Function.iterate_add_apply, ← Function.iterate_add_apply,
    ← Function.iterate_add_apply]

theorem crc16v_eq_direct (s : List Byte) : crc16v s = crc16Direct s := by
  calc crc16v s
      = t16Shift^[16] (s.foldl crc16Step 0) := crc16v_eq_iterate s
    _ = s.foldl crc16DirectStep (t16Shift^[16] 0) :=
        (List.foldl_hom t16Shift^[16] crc16DirectStep_t16Shift_iterate).symm
    _ = crc16Direct s := by rw [t16Shift_iterate_zero, crc16Direct_eq_foldl]

/-! ### The corner cases of R145 -/

/-- R145: a zero accumulator stays zero over zero bytes. -/
theorem crc16v_replicate_zero (n : Nat) : crc16v (List.replicate n 0x00) = 0x0000 := by
  have hfold : (List.replicate n 0x00).foldl crc16Step 0 = 0 := by
    induction n with
    | zero => rfl
    | succ n ih => rwa [List.replicate_succ, List.foldl_cons, crc16Step_zero, t16Shift_iterate_zero]
  rw [crc16v_eq_iterate, hfold, t16Shift_iterate_zero]

/-- R145, by the non-augmented form: from a zero accumulator a byte is one look-up. -/
theorem crc16v_singleton (b : Byte) : crc16v [b] = t16 b := by
  calc crc16v [b] = t16 (0#8 ^^^ b) ^^^ 0#16 := crc16v_eq_direct [b]
    _ = t16 b := by rw [BitVec.zero_xor, BitVec.xor_zero]

/-! ### VFY16 and VFY32 (R152, R153) -/

section
variable {w : CrcWidth} {s : State} {data got : List Byte}

/-- R152, R153: IBUF is data followed by its CRC. -/
theorem verifyTail_good (hs : s.ibuf = data ++ crcOf w data) : verifyTail w s = .next (s.finish .ok) := by
  rw [verifyTail, hs, splitTail_append _ _ _ (crcOf_length w data)]
  simp only [(verify_good_iff w data _).mpr rfl]
  rfl

/-- R152, R153: IBUF is data followed by other bytes than its CRC. -/
theorem verifyTail_mismatch (hs : s.ibuf = data ++ got) (hlen : got.length = w.bytes) (hne : crcOf w data ≠ got) :
    verifyTail w s = .next (s.raiseCrc w (crcOf w data) got) := by
  rw [verifyTail, hs, splitTail_append _ _ _ hlen]
  simp only [verify, if_neg hne]

/-- R152, R153: IBUF has no room for a CRC. -/
theorem verifyTail_short (h : s.ibuf.length < w.bytes) : verifyTail w s = .next (s.finish .eLen) := by
  rw [verifyTail, splitTail_short _ _ h]
  rfl

end

/-! ### The obligations -/

/-- Settles O49: by linearity of the shift, the eight clocks of a byte are one step of the augmented form, and
the augmented form's trailing shifts carry it to the non-augmented one. -/
theorem crc16FormsAgree : Obligations.Crc16FormsAgree := fun s => ⟨crc16v_eq_serial s, crc16v_eq_direct s⟩

/-- Settles O11: the effects are the commands' definitions; zero bytes and the single byte are the laws of R145,
and what is left is evaluated. -/
theorem crcCommandsRun : Obligations.CrcCommandsRun := by
  refine ⟨by decide, by decide, fun _ => rfl, fun _ => rfl, crc16v_replicate_zero, crc16v_singleton, ?_⟩
  decide +kernel

/-- Settles O12: the split of IBUF is fixed by the width, and the comparison with the recomputed CRC decides. -/
theorem verifyCommandsRun : Obligations.VerifyCommandsRun := by
  refine ⟨by decide, by decide, fun s data hs => ?good16, fun s data g0 g1 hs hne => ?mismatch16,
    fun s hshort => ?short16, fun s data hs => ?good32, fun s data g0 g1 g2 g3 hs hne => ?mismatch32,
    fun s hshort => ?short32⟩
  case good16 => exact verifyTail_good (w := .w16) hs
  case mismatch16 => exact verifyTail_mismatch (w := .w16) hs rfl hne
  case short16 => exact verifyTail_short (w := .w16) hshort
  case good32 => exact verifyTail_good (w := .w32) hs
  case mismatch32 => exact verifyTail_mismatch (w := .w32) hs rfl hne
  case short32 => exact verifyTail_short (w := .w32) hshort

end Sys2Proof.Machine

namespace Sys2Proof.Machine

/-! ### When a byte is escaped (R163, R166) -/

theorem mustEscape_iff {e t : Bool} {last c : Byte} :
    mustEscape e t last c = true ↔
      escClass c e t = .always ∨ escClass c e t = .afterAt ∧ last &&& 0x7F = 0x40 := by
  unfold mustEscape
  cases escClass c e t <;> simp

/-- R163: a byte that is escaped stands in one of the two control ranges. -/
theorem control_of_mustEscape {e t : Bool} {last c : Byte} (h : mustEscape e t last c = true) :
    c &&& 0x60 = 0 := by
  by_contra hc
  simp [mustEscape, escClass_of_printable hc] at h

/-- R163: ZDLE and the flow-control bytes are escaped under every configuration. -/
theorem escClass_of_zdle_or_flowControl {c : Byte} (h : c = zdle ∨ isFlowControl c = true) (e t : Bool) :
    escClass c e t = .always := by
  rw [isFlowControl_iff] at h
  rcases h with rfl | rfl | rfl | rfl | rfl <;> rfl

/-- R163: with ECC the whole of the two control ranges is escaped. -/
theorem escClass_ecc_of_control {c : Byte} (h : c &&& 0x60 = 0) (t : Bool) : escClass c true t = .always := by
  rw [escClass, if_neg (not_not.mpr h), if_pos rfl, ite_self]

/-! ### The raw bytes of one source byte (R166, R169) -/

/-- What stands on the wire for the source byte `c`: an escape pair, or the byte itself where nothing forbids it. -/
inductive EncodesByte (e : Bool) (c : Byte) : List Byte → Prop
  | pair (hcontrol : c &&& 0x60 = 0) : EncodesByte e c [zdle, c ^^^ 0x40]
  | literal (hzdle : c ≠ zdle) (hflow : ¬ isFlowControl c = true) (hecc : e = true → c &&& 0x60 ≠ 0) :
      EncodesByte e c [c]

theorem encodesByte_encodeByte (e t : Bool) (last c : Byte) : EncodesByte e c (encodeByte e t last c) := by
  unfold encodeByte
  split
  next h => exact .pair (control_of_mustEscape h)
  next h =>
    have hclass : escClass c e t ≠ .always := fun halways => h (mustEscape_iff.mpr (.inl halways))
    refine .literal (fun hc => hclass (escClass_of_zdle_or_flowControl (.inl hc) e t))
      (fun hc => hclass (escClass_of_zdle_or_flowControl (.inr hc) e t)) ?_
    rintro rfl hc
    exact hclass (escClass_ecc_of_control hc t)

/-- R169: the follower of a control byte is canonical. -/
theorem follower_canonical : ∀ {c : Byte}, c &&& 0x60 = 0 → (c ^^^ 0x40) &&& 0x60 = 0x40 := by decide +kernel

theorem ne_zdle_of_canonical {f : Byte} (h : f &&& 0x60 = 0x40) : f ≠ zdle := by
  rintro rfl
  exact absurd h (by decide)

/-- R168: on a control byte, subtracting 0x40 undoes the encoder's xor. -/
theorem unescape_follower : ∀ {c : Byte}, c &&& 0x60 = 0 → unescape (c ^^^ 0x40) = c := by decide +kernel

/-- R169: every ZDLE of `l` stands before a canonical follower. -/
def ZdleFollowed (l : List Byte) : Prop :=
  ∀ i, l[i]? = some zdle → ∃ f, l[i + 1]? = some f ∧ f &&& 0x60 = 0x40

theorem ZdleFollowed.pair {f : Byte} {l : List Byte} (hf : f &&& 0x60 = 0x40) (h : ZdleFollowed l) :
    ZdleFollowed (zdle :: f :: l)
  | 0, _ => ⟨f, rfl, hf⟩
  | 1, h1 => absurd (Option.some.inj h1) (ne_zdle_of_canonical hf)
  | i + 2, hi => h i hi

theorem ZdleFollowed.literal {b : Byte} {l : List Byte} (hb : b ≠ zdle) (h : ZdleFollowed l) :
    ZdleFollowed (b :: l)
  | 0, h0 => absurd (Option.some.inj h0) hb
  | i + 1, hi => h i hi

namespace EncodesByte

variable {e : Bool} {c : Byte} {u : List Byte}

theorem length_pos (h : EncodesByte e c u) : 0 < u.length := by cases h <;> simp

theorem not_flowControl (h : EncodesByte e c u) : ∀ b ∈ u, ¬ isFlowControl b = true := by
  cases h with
  | pair hcontrol =>
    simpa using ⟨by decide, isFlowControl_of_canonical (follower_canonical hcontrol)⟩
  | literal _ hflow _ => simpa using hflow

theorem eq_zdle_of_ecc (h : EncodesByte true c u) : ∀ b ∈ u, b &&& 0x60 = 0 → b = zdle := by
  cases h with
  | pair hcontrol =>
    have hnot : (c ^^^ 0x40) &&& 0x60 ≠ 0 := by rw [follower_canonical hcontrol]; decide
    simpa using fun h => absurd h hnot
  | literal _ _ hecc => simpa using fun h => absurd h (hecc rfl)

theorem zdleFollowed_append (h : EncodesByte e c u) {l : List Byte} (hl : ZdleFollowed l) :
    ZdleFollowed (u ++ l) := by
  cases h with
  | pair hcontrol => exact .pair (follower_canonical hcontrol) hl
  | literal hzdle _ _ => exact .literal hzdle hl

/-- R174: a splice takes the raw bytes of one source byte as that byte. -/
theorem splice_succ_append (h : EncodesByte e c u) (n : Nat) (s : List Byte) :
    splice (n + 1) (u ++ s) = (splice n s).map fun r => (c :: r.1, r.2 + u.length) := by
  cases h with
  | pair hcontrol =>
    rw [List.cons_append, List.cons_append, List.nil_append, splice_pair, unescape_follower hcontrol]
    rfl
  | literal hzdle _ _ => exact splice_literal hzdle n s

end EncodesByte

/-! ### What holds all along an encoded stream (R169, R175, R176) -/

/-- Every raw byte of a stream is one of those of a source byte. -/
theorem encodesByte_of_mem_zencode {e t : Bool} {last b : Byte} {s : List Byte}
    (h : b ∈ (zencode e t last s).1) : ∃ c u, EncodesByte e c u ∧ b ∈ u := by
  induction s generalizing last with
  | nil => cases h
  | cons c s ih =>
    rcases List.mem_append.mp h with hb | hb
    · exact ⟨c, _, encodesByte_encodeByte e t last c, hb⟩
    · exact ih hb

theorem length_le_zencode (e t : Bool) (last : Byte) (s : List Byte) :
    s.length ≤ (zencode e t last s).1.length := by
  induction s generalizing last with
  | nil => exact Nat.zero_le _
  | cons c s ih =>
    have hc := (encodesByte_encodeByte e t last c).length_pos
    have hs := ih c
    simp only [zencode_cons, List.length_append, List.length_cons]
    omega

/-- R169: in an encoded stream a ZDLE stands only before a canonical follower. -/
theorem zencode_zdleFollowed (e t : Bool) (last : Byte) (s : List Byte) :
    ZdleFollowed (zencode e t last s).1 := by
  induction s generalizing last with
  | nil => exact nofun
  | cons c s ih => exact (encodesByte_encodeByte e t last c).zdleFollowed_append (ih c)

/-! ### What a splice takes (R174) -/

/-- R174: the raw bytes a splice used decode to its result, each logical byte from one or two of them. -/
theorem zdecode_take_of_splice {n : Nat} {s out : List Byte} {i : Nat} (h : splice n s = some (out, i)) :
    zdecode (s.take i) = some out ∧ n ≤ i ∧ i ≤ 2 * n := by
  induction n, s using splice.induct generalizing out i with
  | case1 s =>
    rw [splice_zero] at h
    cases h
    exact ⟨rfl, le_rfl, le_rfl⟩
  | case2 n => cases h
  | case3 n => cases (splice_lone n).symm.trans h
  | case4 n f s ih =>
    rw [splice_pair] at h
    obtain ⟨⟨o, j⟩, hs, heq⟩ := Option.map_eq_some_iff.mp h
    cases heq
    obtain ⟨hdec, hle, hge⟩ := ih hs
    refine ⟨?_, by omega, by omega⟩
    rw [List.take_succ_cons, List.take_succ_cons, zdecode_pair, hdec, Option.map_some]
  | case5 n b s hb ih =>
    rw [splice_literal hb] at h
    obtain ⟨⟨o, j⟩, hs, heq⟩ := Option.map_eq_some_iff.mp h
    cases heq
    obtain ⟨hdec, hle, hge⟩ := ih hs
    refine ⟨?_, by omega, by omega⟩
    rw [List.take_succ_cons, zdecode_literal hb, hdec, Option.map_some]

/-- R174: where a count is NOT_ENOUGH, so is the next. -/
theorem splice_succ_eq_none {n : Nat} {s : List Byte} (h : splice n s = none) : splice (n + 1) s = none := by
  induction n, s using splice.induct with
  | case1 s => cases (splice_zero s).symm.trans h
  | case2 n => exact splice_nil (n + 1)
  | case3 n => exact splice_lone (n + 1)
  | case4 n f s ih =>
    rw [splice_pair, Option.map_eq_none_iff] at h ⊢
    exact ih h
  | case5 n b s hb ih =>
    rw [splice_literal hb, Option.map_eq_none_iff] at h ⊢
    exact ih h

theorem splice_eq_none_of_le {n m : Nat} {s : List Byte} (h : splice n s = none) (hnm : n ≤ m) :
    splice m s = none :=
  Nat.le_induction h (fun _ _ hk => splice_succ_eq_none hk) m hnm

/-- R174: a splice takes exactly an encoded sequence off the front of a stream. -/
theorem splice_zencode_append (e t : Bool) (last : Byte) (x u : List Byte) :
    splice x.length ((zencode e t last x).1 ++ u) = some (x, (zencode e t last x).1.length) := by
  induction x generalizing last with
  | nil => exact splice_zero u
  | cons c x ih =>
    rw [zencode_cons, List.append_assoc, List.length_cons,
      (encodesByte_encodeByte e t last c).splice_succ_append, ih c]
    simp [Nat.add_comm]

/-- R171: decoding inverts encoding, for the decoder agrees with a splice of the whole stream. -/
theorem zdecode_zencode (e t : Bool) (last : Byte) (s : List Byte) : zdecode (zencode e t last s).1 = some s := by
  have hsplice := splice_zencode_append e t last s []
  rw [List.append_nil] at hsplice
  simpa using (zdecode_take_of_splice hsplice).1

/-! ### The two decoding commands (R170, R173) -/

theorem exec_zdec_of_eq {s : State} {r : Option (List Byte)} (h : zdecode s.ibuf = r) :
    exec .zdec s = .next (r.elim (s.raise .eBadesc) fun out => (s.setObuf out).done) := by
  subst h
  simp only [exec, execZdec]
  cases zdecode s.ibuf <;> rfl

theorem exec_rxSplice_of_eq {n : Byte} {s : State} {r : Option (List Byte × Nat)}
    (h : splice n.toNat s.rxbuf = r) :
    exec (.rxSplice n) s = .next (r.elim s.incomplete fun r => ((s.setObuf r.1).consume r.2).done) := by
  subst h
  simp only [exec, execRxSplice, spliceCount]
  cases splice n.toNat s.rxbuf <;> rfl

/-! ### The obligations -/

/-- Settles O51: a splice of the encoded stream takes the whole sequence, and the raw bytes it used decode to it. -/
theorem escapeRoundTrip : Obligations.EscapeRoundTrip := zdecode_zencode

/-- Settles O52: the followers by induction along the stream, the bytes ruled out by asking it of the raw bytes of one
source byte, and the size as the sum over the source bytes. -/
theorem escapedStreamGuarantees : Obligations.EscapedStreamGuarantees := by
  intro e t last s
  refine ⟨fun i hi => ?followers, fun b hb => ?flow, fun he b hb => ?ecc, length_le_zencode e t last s,
    zencode_length_le e t last s⟩
  case followers =>
    obtain ⟨f, hf, hcanonical⟩ := zencode_zdleFollowed e t last s i hi
    exact ⟨f, hf, hcanonical, ne_zdle_of_canonical hcanonical⟩
  case flow =>
    obtain ⟨c, u, hu, hbu⟩ := encodesByte_of_mem_zencode hb
    simpa only [isFlowControl_iff, not_or] using hu.not_flowControl b hbu
  case ecc =>
    subst he
    obtain ⟨c, u, hu, hbu⟩ := encodesByte_of_mem_zencode hb
    exact hu.eq_zdle_of_ecc b hbu

/-- Settles O53: each law is an induction along the splice or along the encoder. -/
theorem spliceLaws : Obligations.SpliceLaws := by
  refine ⟨fun n s out i h => ?used, fun n s out i u h => splice_append h u,
    fun n m s h hnm => splice_eq_none_of_le h hnm.le, splice_zencode_append⟩
  case used =>
    obtain ⟨hdec, hle, hge⟩ := zdecode_take_of_splice h
    exact ⟨hdec, splice_length h, hle, hge, splice_used_le h⟩

/-- Settles O13: the commands are their definitions, with LASTCODE moved on to the last source byte; the loop's test is
`mustEscape_iff`. -/
theorem encoderCommandsRun : Obligations.EncoderCommandsRun := by
  refine ⟨decodeCommand_or_byte (op := 0x22) (fun _ => rfl) (fun _ => rfl), by decide, fun _ _ => rfl,
    fun s => ?zenc, fun _ _ _ => rfl, fun e t last c rest => ?loop, zencode_last⟩
  case zenc => rw [← zencode_last (s.cfg.getLsbD 0) (s.cfg.getLsbD 1)]; rfl
  case loop => simp only [zencode_cons, encodeByte, mustEscape_iff, zdle]

/-- Settles O14: the commands end by what their functions give, and the loops are the equations of these. -/
theorem decoderCommandsRun : Obligations.DecoderCommandsRun :=
  ⟨by decide, decodeCommand_or_byte (op := 0x47) (fun _ => rfl) (fun _ => rfl), fun _ _ h => exec_zdec_of_eq h,
    fun _ h => exec_zdec_of_eq h, fun _ _ _ _ h => exec_rxSplice_of_eq h, fun _ _ h => exec_rxSplice_of_eq h,
    zdecode_nil, rfl, zdecode_pair, fun _ raw hb => zdecode_literal hb raw, splice_zero,
    fun n => ⟨splice_nil n, splice_lone n⟩, splice_pair, fun n _ raw hb => splice_literal hb n raw⟩

/-- Settles O50: the table is read off for each of the 256 bytes. -/
theorem escapeClassTable : Obligations.EscapeClassTable :=
  ⟨by decide +kernel, by decide +kernel, by decide +kernel⟩

end Sys2Proof.Machine

namespace Sys2Proof.Machine

/-! ### Line ends (R7, R211, R212) -/

/-- R211: only 0x0A ends a line, HEX_HIBIT_EOL being no. -/
theorem isLf_iff {b : Byte} : isLf b = true ↔ b = 0x0A := by simp [isLf, hexHibitEol]

theorem isCr_iff {b : Byte} : isCr b = true ↔ b = 0x0D := by simp [isCr, hexHibitEol]

/-- R211: no LF is found among the bytes of a window that holds none. -/
theorem findLf_of_not_mem {l : List Byte} (h : 0x0A ∉ l) : l.findIdx? isLf = none :=
  List.findIdx?_eq_none_iff.mpr fun _ hb => Bool.eq_false_iff.mpr fun hlf => h (isLf_iff.mp hlf ▸ hb)

/-- R211: the first LF of the buffer, if the window reaches it, is the one found. -/
theorem findLf_of_first {buf : List Byte} {j : Nat} (hlf : buf[j]? = some 0x0A) (hno : 0x0A ∉ buf.take j)
    (hj : j < hexLfWindow) : (buf.take hexLfWindow).findIdx? isLf = some j := by
  obtain ⟨hlen, hget⟩ := List.getElem?_eq_some_iff.mp hlf
  rw [List.findIdx?_eq_some_iff_getElem]
  refine ⟨by rw [List.length_take]; omega, by rw [List.getElem_take, hget]; rfl, fun i hi hat => hno ?_⟩
  rw [List.getElem_take, isLf_iff] at hat
  exact List.mem_take_iff_getElem.mpr ⟨i, by omega, hat⟩

/-- R212: where the LF has to stand in a well-delimited hex header. -/
def LfInPlace (buf : List Byte) (j : Nat) : Prop := j = 18 ∨ (j = 19 ∧ buf[18]? = some 0x0D)

theorem LfInPlace.lt_window {buf : List Byte} {j : Nat} (h : LfInPlace buf j) : j < hexLfWindow := by
  change j < 20
  rcases h with rfl | ⟨rfl, -⟩ <;> decide

/-- R212: the section's own test of the place. -/
theorem lfInPlace_iff {buf : List Byte} {j : Nat} (hlen : j < buf.length) :
    LfInPlace buf j ↔ j = 18 ∨ (j = 19 ∧ isCr (buf.getD 18 0)) := by
  refine or_congr_right (and_congr_right ?_)
  rintro rfl
  have h18 : 18 < buf.length := by omega
  rw [isCr_iff, List.getD_eq_getElem _ _ h18, List.getElem?_eq_getElem h18, Option.some_inj]

/-! ### The hex section by the first LF (R211 to R213) -/

section
variable {buf : List Byte} {j : Nat}

theorem hexSection_of_short (hlen : buf.length < 20) (hno : 0x0A ∉ buf) : hexSection buf = .incomplete := by
  have hwindow : 0x0A ∉ buf.take hexLfWindow := fun h => hno (List.mem_of_mem_take h)
  rw [hexSection_of_no_lf (findLf_of_not_mem hwindow)]
  exact if_pos hlen

theorem hexSection_of_no_lf_in_window (hlen : 20 ≤ buf.length) (hno : 0x0A ∉ buf.take 20) :
    hexSection buf = .malformed 4 := by
  rw [hexSection_of_no_lf (findLf_of_not_mem hno)]
  exact if_neg hlen.not_gt

theorem hexSection_of_misplaced_lf (hlf : buf[j]? = some 0x0A) (hno : 0x0A ∉ buf.take j) (hj : j < 20)
    (hplace : ¬ LfInPlace buf j) : hexSection buf = .malformed (j + 1) := by
  have hfound := findLf_of_first hlf hno hj
  rw [lfInPlace_iff (lt_length_of_lf hfound)] at hplace
  rw [hexSection_of_lf hfound, if_neg hplace]

theorem hexSection_of_placed_lf (hlf : buf[j]? = some 0x0A) (hno : 0x0A ∉ buf.take j)
    (hplace : LfInPlace buf j) :
    hexSection buf = (hexDecode ((buf.take 18).drop 4)).elim (.malformed (j + 1)) (.found · (j + 1)) := by
  have hfound := findLf_of_first hlf hno hplace.lt_window
  rw [lfInPlace_iff (lt_length_of_lf hfound)] at hplace
  rw [hexSection_of_lf hfound, if_pos hplace]

end

/-! ### RX.HDR by what stands at the head of RXBUF (R208, R209) -/

/-- The frame start of a binary header, by its CRC width (R200). -/
def binStart : CrcWidth → StartKind
  | .w16 => .bin16
  | .w32 => .bin32

/-- R79, R80, R200: what TX.BIN16 and TX.BIN32 send first is the start of their own framing. -/
theorem startKind_of_binPrefix {w : CrcWidth} {s : List Byte} (h : binPrefix w <+: s) :
    startKind s = binStart w := by
  cases w with
  | w16 => exact startKind_of_bin16 h
  | w32 => exact startKind_of_bin32 h

section
variable {s : State}

theorem exec_rxHdr_of_hex (h : startKind s.rxbuf = .hex) :
    exec .rxHdr s = takeHeader .hex .w16 (hexSection s.rxbuf) s := by
  simp only [exec, execRxHdr, h]

theorem exec_rxHdr_of_bin {w : CrcWidth} (h : startKind s.rxbuf = binStart w) :
    exec .rxHdr s = takeHeader (binStart w) w (binSection w s.rxbuf) s := by
  cases w <;> simp only [exec, execRxHdr, h, binStart]

theorem exec_rxHdr_of_empty (h : s.rxbuf = []) : exec .rxHdr s = .next (s.finish .incomplete) := by
  simp [exec, execRxHdr, h, startKind_nil]

theorem exec_rxHdr_of_undecided (h : startKind s.rxbuf = .undecided) :
    exec .rxHdr s = .next (s.finish .incomplete) := by
  simp [exec, execRxHdr, h]

theorem exec_rxHdr_of_noStart (hne : s.rxbuf ≠ []) (h : startKind s.rxbuf = .noStart) :
    exec .rxHdr s = .next (s.finish .eNoframe) := by
  simp [exec, execRxHdr, h, hne]

end

/-! ### A header with its CRC (R215 to R218) -/

/-- The next state once the header `h` with the CRC bytes `got` has been taken off RXBUF: the CRC is judged first,
then the type (R217). -/
def State.judgeHeader (s : State) (k : StartKind) (w : CrcWidth) (h : Header) (got : List Byte) : State :=
  if crcOf w h.bytes ≠ got then s.raiseCrc w (crcOf w h.bytes) got
  else if 11 < h.b0.toNat then s.finish .eUnsupported
  else (s.setParsedHeader h (BitVec.ofNat 2 k.code)).finish .ok

theorem supportedType_iff {t : Byte} : supportedType t = true ↔ t.toNat ≤ 11 := by
  rw [supportedType, decide_eq_true_eq, BitVec.le_def]
  rfl

theorem headerOf_bytes_append (h : Header) (got : List Byte) : headerOf (h.bytes ++ got) = h := rfl

/-- R209: what the parser does with a delimited header. -/
theorem acceptHeader_bytes_append (k : StartKind) (w : CrcWidth) (h : Header) (got : List Byte) (s : State) :
    acceptHeader k w (h.bytes ++ got) s = .next (s.judgeHeader k w h got) := by
  have htake : (h.bytes ++ got).take 5 = h.bytes := rfl
  have hdrop : (h.bytes ++ got).drop 5 = got := rfl
  have hcases := acceptHeader_cases k w (h.bytes ++ got) s
  rw [htake, hdrop, headerOf_bytes_append] at hcases
  unfold State.judgeHeader
  rcases hcases with ⟨hcrc, heq⟩ | ⟨hcrc, htype, heq⟩ | ⟨hcrc, htype, heq⟩ <;> rw [heq]
  · rw [if_pos hcrc]
  · rw [Bool.eq_false_iff, ne_eq, supportedType_iff, not_le] at htype
    rw [if_neg (not_not.mpr hcrc), if_pos htype]
  · rw [supportedType_iff, ← not_lt] at htype
    rw [if_neg (not_not.mpr hcrc), if_neg htype]

/-- R218: a header of a supported type with its own CRC is kept. -/
theorem State.judgeHeader_of_supported (s : State) (k : StartKind) (w : CrcWidth) {h : Header}
    (ht : h.b0.toNat ≤ 11) :
    s.judgeHeader k w h (crcOf w h.bytes) = (s.setParsedHeader h (BitVec.ofNat 2 k.code)).finish .ok := by
  rw [State.judgeHeader, if_neg (not_not.mpr rfl), if_neg ht.not_gt]

section
variable {s : State} {h : Header} {got : List Byte}

/-- R212, R213: a well-delimited hex header is taken off with its line end and judged. -/
theorem exec_rxHdr_of_hexLine {j : Nat} (hstart : startKind s.rxbuf = .hex) (hlf : s.rxbuf[j]? = some 0x0A)
    (hno : 0x0A ∉ s.rxbuf.take j) (hplace : LfInPlace s.rxbuf j)
    (hdec : hexDecode ((s.rxbuf.take 18).drop 4) = some (h.bytes ++ got)) :
    exec .rxHdr s = .next ((s.consume (j + 1)).judgeHeader .hex .w16 h got) := by
  rw [exec_rxHdr_of_hex hstart, hexSection_of_placed_lf hlf hno hplace, hdec]
  exact acceptHeader_bytes_append ..

/-- R211 to R213: a hex header that is badly delimited, or not in digits, is taken off. -/
theorem exec_rxHdr_of_malformed {used : Nat} (hstart : startKind s.rxbuf = .hex)
    (hsection : hexSection s.rxbuf = .malformed used) :
    exec .rxHdr s = .next ((s.consume used).finish .eHexfmt) := by
  rw [exec_rxHdr_of_hex hstart, hsection]
  rfl

/-- R214: the three bytes of the start and the raw bytes used go, and the logical bytes are judged. -/
theorem exec_rxHdr_of_bin_splice {w : CrcWidth} {u : Nat} (hstart : startKind s.rxbuf = binStart w)
    (hsplice : splice (5 + w.bytes) (s.rxbuf.drop 3) = some (h.bytes ++ got, u)) :
    exec .rxHdr s = .next ((s.consume (3 + u)).judgeHeader (binStart w) w h got) := by
  rw [exec_rxHdr_of_bin hstart, binSection, hsplice]
  exact acceptHeader_bytes_append ..

/-- R214: with too few logical bytes behind the start nothing goes. -/
theorem exec_rxHdr_of_bin_short {w : CrcWidth} (hstart : startKind s.rxbuf = binStart w)
    (hsplice : splice (5 + w.bytes) (s.rxbuf.drop 3) = none) :
    exec .rxHdr s = .next (s.finish .incomplete) := by
  rw [exec_rxHdr_of_bin hstart, binSection, hsplice]
  rfl

end

/-! ### A frame that arrives in an empty RXBUF (R220) -/

/-- R7: the smallest RXBUF takes any header. -/
theorem feed_empty_rxbuf {s : State} {frame : List Byte} (hp : s.params.wellFormed = true) (hne : frame ≠ [])
    (hlen : frame.length ≤ 16394) :
    feed frame { s with rxbuf := [] } =
      (s.setRxbuf (frame.filter (fun b => !isFlowControl b))).finish .ok := by
  refine feed_with_room frame { s with rxbuf := [] } hne fun cap hcap => ?_
  change s.params.rxbufCap = some cap at hcap
  simp only [Config.Params.wellFormed, hcap, Bool.and_eq_true, decide_eq_true_eq] at hp
  simp only [List.length_nil]
  omega

theorem filter_eq_self_of_no_flowControl {l : List Byte} (h : ∀ b ∈ l, isFlowControl b = false) :
    l.filter (fun b => !isFlowControl b) = l :=
  List.filter_eq_self.mpr fun b hb => by rw [h b hb, Bool.not_false]

/-- R220: it is enough to parse what arrived. The frame is a variable here: comparing two whole states that hold a
frame with its CRC would compute that CRC. -/
theorem exec_rxHdr_feed {s : State} {frame arrived : List Byte} {h : Header} {f : BitVec 2}
    (hp : s.params.wellFormed = true) (hne : frame ≠ []) (hlen : frame.length ≤ 16394)
    (harrived : frame.filter (fun b => !isFlowControl b) = arrived)
    (hparse : ∀ t : State, t.rxbuf = arrived →
      exec .rxHdr t = .next (((t.setRxbuf []).setParsedHeader h f).finish .ok)) :
    exec .rxHdr (feed frame { s with rxbuf := [] }) =
      .next { s with rxbuf := [], rxh := h, hfmt := f, status := 0x00 } := by
  rw [feed_empty_rxbuf hp hne hlen, harrived, hparse _ rfl]
  rfl

/-- What TX.HEX sends ahead of the line end (R191). -/
def hexBody (h : Header) : List Byte := pfxHex ++ hexEncode (h.bytes ++ crc16 h.bytes)

theorem hexBody_length (h : Header) : (hexBody h).length = 18 := by
  simp [hexBody, pfxHex, Header.bytes, crc16]

theorem hexBody_plain (h : Header) : ∀ b ∈ hexBody h, isFlowControl b = false ∧ b ≠ 0x0A := by
  have hdigits : ∀ b ∈ pfxHex ++ hexDigits, isFlowControl b = false ∧ b ≠ 0x0A := by decide
  intro b hb
  refine hdigits b (List.mem_append.mpr ?_)
  exact (List.mem_append.mp hb).imp_right (mem_hexDigits_of_mem_hexEncode b)

/-- R192, R210: with XON dropped, a line end arrives as an LF with or without a CR before it. -/
theorem eolBytes_arrives {sel : BitVec 2} (hsel : sel ≠ 3) :
    ∃ eol cr, eolBytes sel = some eol ∧ eol.length ≤ 3 ∧
      eol.filter (fun b => !isFlowControl b) = cr ++ [0x0A] ∧ (cr = [] ∨ cr = [0x0D]) := by
  have hcases : sel = 0 ∨ sel = 1 ∨ sel = 2 := by revert sel; decide
  rcases hcases with rfl | rfl | rfl
  · exact ⟨eolCrLfXon, [0x0D], rfl, by decide, by decide, .inr rfl⟩
  · exact ⟨eolCrLf, [0x0D], rfl, by decide, by decide, .inr rfl⟩
  · exact ⟨eolLf, [], rfl, by decide, by decide, .inl rfl⟩

/-- R220: a hex header of a supported type that arrived whole, with either line end, is parsed. -/
theorem exec_rxHdr_of_hexBody {s : State} {h : Header} {cr : List Byte} (ht : h.b0.toNat ≤ 11)
    (hcr : cr = [] ∨ cr = [0x0D]) (hbuf : s.rxbuf = hexBody h ++ (cr ++ [0x0A])) :
    exec .rxHdr s = .next (((s.setRxbuf []).setParsedHeader h 1).finish .ok) := by
  have hlen := hexBody_length h
  have hsplit : s.rxbuf = (hexBody h ++ cr) ++ [0x0A] := by rw [hbuf, List.append_assoc]
  have hstart : startKind s.rxbuf = .hex := by
    rw [hbuf, hexBody, List.append_assoc]
    exact startKind_of_hex (List.prefix_append _ _)
  have hlf : s.rxbuf[(hexBody h ++ cr).length]? = some 0x0A := by rw [hsplit, List.getElem?_concat_length]
  have hno : 0x0A ∉ s.rxbuf.take (hexBody h ++ cr).length := by
    rw [hsplit, List.take_left, List.mem_append]
    rintro (hmem | hmem)
    · exact (hexBody_plain h _ hmem).2 rfl
    · rcases hcr with rfl | rfl <;> exact absurd hmem (by decide)
  have hplace : LfInPlace s.rxbuf (hexBody h ++ cr).length := by
    rw [hbuf]
    rcases hcr with rfl | rfl <;> simp [LfInPlace, hlen]
  have hdec : hexDecode ((s.rxbuf.take 18).drop 4) = some (h.bytes ++ crc16 h.bytes) := by
    rw [hbuf, ← hlen, List.take_left]
    exact hexDecode_hexEncode _
  have hgone : s.consume ((hexBody h ++ cr).length + 1) = s.setRxbuf [] := by
    rw [State.consume_eq, List.drop_eq_nil_of_le]
    rw [hsplit, List.length_append, List.length_singleton]
  rw [exec_rxHdr_of_hexLine hstart hlf hno hplace hdec, hgone]
  exact congrArg Host.Outcome.next (State.judgeHeader_of_supported _ .hex .w16 ht)

/-- R191, R193: TX.HEX with a line ending that exists. -/
theorem exec_txHex_of_eol {sel : BitVec 2} {eol : List Byte} (h : eolBytes sel = some eol) (s : State) :
    exec (.txHex sel) s = .next ((s.transmit (hexBody s.hdr ++ eol)).finish .ok) := by
  have hframe : serHex s.hdr.bytes sel = some (hexBody s.hdr ++ eol) := by rw [serHex, h]; rfl
  simp only [exec, execTxHex, hframe, State.done_eq]

/-- The frame TX.BIN16 and TX.BIN32 append (R194, R195). -/
def binFrame (w : CrcWidth) (s : State) : List Byte :=
  (serBin w s.hdr.bytes (ecc s.cfg) (turbo s.cfg) s.lastcode).1

/-- R196, R197, with the frame as one piece. -/
theorem sendBin_eq (w : CrcWidth) (s : State) :
    sendBin w s = .next { s with
      txout := s.txout ++ binFrame w s,
      lastcode := (s.hdr.bytes ++ crcOf w s.hdr.bytes).getLastD s.lastcode, status := 0x00 } := by
  rw [← zencode_last (ecc s.cfg) (turbo s.cfg)]
  rfl

theorem binFrame_eq (w : CrcWidth) (s : State) :
    binFrame w s = binPrefix w ++
      (zencode (ecc s.cfg) (turbo s.cfg) s.lastcode (s.hdr.bytes ++ crcOf w s.hdr.bytes)).1 := rfl

theorem zencode_no_flowControl (e t : Bool) (last : Byte) (x : List Byte) :
    ∀ b ∈ (zencode e t last x).1, isFlowControl b = false := by
  intro b hb
  obtain ⟨c, u, hu, hbu⟩ := encodesByte_of_mem_zencode hb
  exact Bool.eq_false_iff.mpr (hu.not_flowControl b hbu)

theorem binFrame_no_flowControl (w : CrcWidth) (s : State) : ∀ b ∈ binFrame w s, isFlowControl b = false := by
  have hprefix : ∀ b ∈ binPrefix w, isFlowControl b = false := by cases w <;> decide
  exact List.forall_mem_append.mpr ⟨hprefix, zencode_no_flowControl _ _ _ _⟩

theorem binPrefix_length (w : CrcWidth) : (binPrefix w).length = 3 := by cases w <;> rfl

theorem binFrame_length_le (w : CrcWidth) (s : State) : (binFrame w s).length ≤ 21 := by
  have henc := zencode_length_le (ecc s.cfg) (turbo s.cfg) s.lastcode (s.hdr.bytes ++ crcOf w s.hdr.bytes)
  have hw : w.bytes ≤ 4 := by cases w <;> decide
  have hhdr : s.hdr.bytes.length = 5 := rfl
  rw [List.length_append, hhdr, crcOf_length] at henc
  rw [binFrame_eq, List.length_append, binPrefix_length]
  omega

/-- R220: a binary header of a supported type that arrived whole is parsed, whatever CFG and LASTCODE it was sent
under. -/
theorem exec_rxHdr_of_binFrame {w : CrcWidth} {s t : State} (ht : s.hdr.b0.toNat ≤ 11)
    (hbuf : t.rxbuf = binFrame w s) :
    exec .rxHdr t =
      .next (((t.setRxbuf []).setParsedHeader s.hdr (BitVec.ofNat 2 (binStart w).code)).finish .ok) := by
  have hstart : startKind t.rxbuf = binStart w :=
    startKind_of_binPrefix (hbuf ▸ List.prefix_append _ _)
  have hdrop : t.rxbuf.drop 3 =
      (zencode (ecc s.cfg) (turbo s.cfg) s.lastcode (s.hdr.bytes ++ crcOf w s.hdr.bytes)).1 := by
    rw [hbuf, binFrame_eq, List.drop_left' (binPrefix_length w)]
  have hsplice : splice (5 + w.bytes) (t.rxbuf.drop 3) =
      some (s.hdr.bytes ++ crcOf w s.hdr.bytes, (t.rxbuf.drop 3).length) := by
    have hlen : (s.hdr.bytes ++ crcOf w s.hdr.bytes).length = 5 + w.bytes := by
      rw [List.length_append, crcOf_length]
      rfl
    have htaken := splice_zencode_append (ecc s.cfg) (turbo s.cfg) s.lastcode
      (s.hdr.bytes ++ crcOf w s.hdr.bytes) []
    rwa [List.append_nil, ← hdrop, hlen] at htaken
  have hgone : t.consume (3 + (t.rxbuf.drop 3).length) = t.setRxbuf [] := by
    rw [State.consume_eq, List.drop_eq_nil_of_le]
    rw [List.length_drop]
    omega
  rw [exec_rxHdr_of_bin_splice hstart hsplice, hgone, State.judgeHeader_of_supported _ _ _ ht]

/-- R220, for either width: the frame sent is the frame parsed. -/
theorem sendBin_roundTrip (w : CrcWidth) {s : State} (ht : s.hdr.b0.toNat ≤ 11)
    (hp : s.params.wellFormed = true) :
    ∃ frame l,
      sendBin w s = .next { s with txout := s.txout ++ frame, lastcode := l, status := 0x00 } ∧
      exec .rxHdr (feed frame { s with rxbuf := [] }) =
        .next { s with
          rxbuf := [], rxh := s.hdr, hfmt := BitVec.ofNat 2 (binStart w).code, status := 0x00 } := by
  have hne : binFrame w s ≠ [] := List.append_ne_nil_of_left_ne_nil (by cases w <;> decide) _
  have hlen : (binFrame w s).length ≤ 16394 := (binFrame_length_le w s).trans (by decide)
  refine ⟨binFrame w s, _, sendBin_eq w s, ?_⟩
  exact exec_rxHdr_feed hp hne hlen (filter_eq_self_of_no_flowControl (binFrame_no_flowControl w s))
    fun t => exec_rxHdr_of_binFrame ht

/-! ### What RX.TRIM leaves (R204, R206) -/

/-- R204: where a frame starts or may start, or nothing is left, there is no garbage. -/
theorem trim_of_start {s : List Byte} (h : s = [] ∨ startKind s ≠ .noStart) : trim s = ([], s) := by
  cases s with
  | nil => rfl
  | cons b s => rw [trim_cons, if_neg (h.resolve_left (List.cons_ne_nil b s))]

theorem trim_cons_of_noStart {b : Byte} {s : List Byte} (h : startKind (b :: s) = .noStart) :
    trim (b :: s) = (b :: (trim s).1, (trim s).2) := by rw [trim_cons, if_pos h]

/-- R204: no frame starts or may start at any place of the garbage. -/
theorem startKind_drop_of_lt_trim {buf : List Byte} {k : Nat} (hk : k < (trim buf).1.length) :
    startKind (buf.drop k) = .noStart := by
  induction buf generalizing k with
  | nil => exact absurd hk (Nat.not_lt_zero k)
  | cons b s ih =>
    by_cases h : startKind (b :: s) = .noStart
    · rw [trim_cons_of_noStart h, List.length_cons] at hk
      cases k with
      | zero => exact h
      | succ k => exact ih (Nat.lt_of_succ_lt_succ hk)
    · rw [trim_of_start (.inr h)] at hk
      exact absurd hk (Nat.not_lt_zero k)

theorem trim_rest_starts (buf : List Byte) : (trim buf).2 = [] ∨ startKind (trim buf).2 ≠ .noStart := by
  induction buf with
  | nil => exact .inl rfl
  | cons b s ih =>
    by_cases h : startKind (b :: s) = .noStart
    · rwa [trim_cons_of_noStart h]
    · rw [trim_of_start (.inr h)]
      exact .inr h

/-- R206: the garbage known before `b` arrives stays garbage, and the rest is looked at again with `b` behind it. -/
theorem trim_append_eq (a b : List Byte) :
    trim (a ++ b) = ((trim a).1 ++ (trim ((trim a).2 ++ b)).1, (trim ((trim a).2 ++ b)).2) := by
  induction a with
  | nil => rfl
  | cons x a ih =>
    by_cases h : startKind (x :: a) = .noStart
    · have hlonger : startKind (x :: (a ++ b)) = .noStart := by
        rw [← List.cons_append, startKind_append (List.cons_ne_nil x a) (by rw [h]; decide), h]
      rw [List.cons_append, trim_cons_of_noStart hlonger, ih, trim_cons_of_noStart h]
      rfl
    · rw [trim_of_start (.inr h)]
      rfl

/-! ### What a frame start is recognised by (R200) -/

theorem prefix_of_properPrefix {s p : List Byte} (h : properPrefix s p = true) : s <+: p :=
  (properPrefix_iff.mp h).1

/-- What each answer of `start_kind` says of the sequence (R200). -/
def StartKind.Shows (s : List Byte) : StartKind → Prop
  | .hex => pfxHex <+: s
  | .bin16 => pfxBin16 <+: s
  | .bin32 => pfxBin32 <+: s
  | .undecided => s <+: pfxHex ∨ s <+: pfxBin16 ∨ s <+: pfxBin32
  | .noStart => True

theorem startKind_shows (s : List Byte) : (startKind s).Shows s := by
  unfold startKind
  split
  next h => exact startsWith_iff.mp h
  split
  next h => exact startsWith_iff.mp h
  split
  next h => exact startsWith_iff.mp h
  split
  next h => exact h.2.imp prefix_of_properPrefix (Or.imp prefix_of_properPrefix prefix_of_properPrefix)
  next => exact trivial

theorem StartKind.Shows.of_eq {s : List Byte} {k : StartKind} (h : startKind s = k) : k.Shows s :=
  h ▸ startKind_shows s

/-- R200: the four undecided sequences. -/
theorem startKind_eq_undecided_iff {s : List Byte} :
    startKind s = .undecided ↔
      s = [0x2A] ∨ s = [0x2A, 0x2A] ∨ s = [0x2A, 0x2A, 0x18] ∨ s = [0x2A, 0x18] := by
  refine ⟨fun h => ?_, ?_⟩
  · have hlisted : ∀ s ∈ pfxHex.inits ++ pfxBin16.inits ++ pfxBin32.inits, startKind s = .undecided →
        s = [0x2A] ∨ s = [0x2A, 0x2A] ∨ s = [0x2A, 0x2A, 0x18] ∨ s = [0x2A, 0x18] := by decide
    have hpiece : s <+: pfxHex ∨ s <+: pfxBin16 ∨ s <+: pfxBin32 := StartKind.Shows.of_eq h
    refine hlisted s ?_ h
    simpa only [List.mem_append, List.mem_inits, or_assoc] using hpiece
  · rintro (rfl | rfl | rfl | rfl) <;> decide

/-! ### Illegal line endings (R90, R192) -/

/-- R90: a word of opcode 0x30 with padding, or with the selector no line ending has. -/
theorem decodeCommand_of_badEol {cw : CommandWord} (hop : opcode cw = 0x30#8)
    (hbad : selectorPadding cw ≠ 0#6 ∨ selector cw = 3#2) : decodeCommand cw = .illegal cw := by
  have hS : (opcode cw).toNat ∈ opcodesS := by rw [hop]; decide
  rw [decodeCommand_eq_illegal_iff, illegalWord_of_opcodeS hS, hop]
  simpa using hbad

/-! ### The obligations -/

/-- Settles O56: the frame arrives but for the XON, and what arrived is a well-delimited line with its own CRC. -/
theorem hexHeaderRoundTrip : Obligations.HexHeaderRoundTrip := by
  intro s sel hsel ht hp
  obtain ⟨eol, cr, heol, hlen, hfilter, hcr⟩ := eolBytes_arrives hsel
  have hframe : (hexBody s.hdr ++ eol).length ≤ 16394 := by
    rw [List.length_append, hexBody_length]
    omega
  have harrived : (hexBody s.hdr ++ eol).filter (fun b => !isFlowControl b) = hexBody s.hdr ++ (cr ++ [0x0A]) := by
    rw [List.filter_append, hfilter, filter_eq_self_of_no_flowControl fun b hb => (hexBody_plain _ b hb).1]
  refine ⟨hexBody s.hdr ++ eol, exec_txHex_of_eol heol s, ?_⟩
  exact exec_rxHdr_feed hp (by simp [hexBody, pfxHex]) hframe harrived fun t => exec_rxHdr_of_hexBody ht hcr

/-- Settles O57: both widths are `sendBin_roundTrip`. -/
theorem binaryHeaderRoundTrip : Obligations.BinaryHeaderRoundTrip :=
  fun _ ht hp => ⟨sendBin_roundTrip .w16 ht hp, sendBin_roundTrip .w32 ht hp⟩

/-- Settles O20: each clause is one outcome of the hex section. -/
theorem hexFramingOutcomes : Obligations.HexFramingOutcomes := by
  refine ⟨fun s hstart hlen hno => ?short, fun s hstart hlen hno => ?noLf,
    fun s j hstart hj hlf hno hplace => ?misplaced, fun s j hstart hlf hno hplace hdec => ?digits⟩
  case short =>
    rw [exec_rxHdr_of_hex hstart, hexSection_of_short hlen hno]
    rfl
  case noLf => exact exec_rxHdr_of_malformed hstart (hexSection_of_no_lf_in_window hlen hno)
  case misplaced => exact exec_rxHdr_of_malformed hstart (hexSection_of_misplaced_lf hlf hno hj hplace)
  case digits =>
    have hsection := hexSection_of_placed_lf hlf hno hplace
    rw [hdec] at hsection
    exact exec_rxHdr_of_malformed hstart hsection

/-- Settles O21: `State.judgeHeader` is the three endings in the order of R217. -/
theorem hexHeaderOutcomes : Obligations.HexHeaderOutcomes :=
  fun _ _ h0 h1 h2 h3 h4 _ _ hstart hlf hno hplace hdec =>
    exec_rxHdr_of_hexLine (h := ⟨h0, h1, h2, h3, h4⟩) hstart hlf hno hplace hdec

/-- Settles O54: `startKind_shows` is the one direction, `startKind_of_hex` and its like the other. -/
theorem frameStartsRecognised : Obligations.FrameStartsRecognised := fun _ =>
  ⟨⟨StartKind.Shows.of_eq, startKind_of_hex⟩, ⟨StartKind.Shows.of_eq, startKind_of_bin16⟩,
    ⟨StartKind.Shows.of_eq, startKind_of_bin32⟩, startKind_eq_undecided_iff⟩

/-- Settles O55: idempotence is that the rest is empty or starts a frame. -/
theorem trimLaws : Obligations.TrimLaws :=
  ⟨fun buf => ⟨trim_append buf, fun _ => startKind_drop_of_lt_trim, trim_rest_starts buf,
    trim_of_start (trim_rest_starts buf)⟩, trim_append_eq⟩

/-- Settles O15: the three line endings are those `eolBytes` gives; all else of opcode 0x30 is R90. -/
theorem hexHeaderSent : Obligations.HexHeaderSent := by
  refine ⟨by decide, by decide, by decide, fun s => ⟨?crLfXon, ?crLf, ?lf, hexBody_length s.hdr⟩,
    fun cw s hop hbad => ?illegal⟩
  case crLfXon => exact exec_txHex_of_eol (eol := eolCrLfXon) rfl s
  case crLf => exact exec_txHex_of_eol (eol := eolCrLf) rfl s
  case lf => exact exec_txHex_of_eol (eol := eolLf) rfl s
  case illegal =>
    rw [decodeCommand_of_badEol hop hbad]
    rfl

/-- Settles O16: LASTCODE is the last source byte encoded (R40), which is the last of the CRC. -/
theorem binaryHeadersSent : Obligations.BinaryHeadersSent :=
  ⟨by decide, by decide, sendBin_eq .w16, sendBin_eq .w32⟩

/-- Settles O17: the code written to ARG, start by start. -/
theorem trimCommandRuns : Obligations.TrimCommandRuns := by
  refine ⟨by decide, fun s => ?_⟩
  simp only [exec, execRxTrim]
  cases startKind (trim s.rxbuf).2 <;> rfl

/-- Settles O18: RX.HDR's answers where there is nothing to delimit. -/
theorem headerNotThereOutcomes : Obligations.HeaderNotThereOutcomes :=
  ⟨by decide, fun _ => exec_rxHdr_of_empty, fun _ => exec_rxHdr_of_undecided, fun _ => exec_rxHdr_of_noStart⟩

/-- Settles O19: both widths by the splice behind the start. -/
theorem binaryHeaderOutcomes : Obligations.BinaryHeaderOutcomes :=
  ⟨fun _ => exec_rxHdr_of_bin_short (w := .w16),
    fun _ h0 h1 h2 h3 h4 _ _ _ => exec_rxHdr_of_bin_splice (w := .w16) (h := ⟨h0, h1, h2, h3, h4⟩),
    fun _ => exec_rxHdr_of_bin_short (w := .w32),
    fun _ h0 h1 h2 h3 h4 _ _ _ _ _ => exec_rxHdr_of_bin_splice (w := .w32) (h := ⟨h0, h1, h2, h3, h4⟩)⟩

end Sys2Proof.Machine

namespace Sys2Proof.Machine

/-! ### The first terminator marker (R237) -/

/-- R237: a ZDLE at index `i` of `b`, with the terminator byte `t` behind it. -/
def MarkerAt (b : List Byte) (i : Nat) (t : Byte) : Prop :=
  b[i]? = some zdle ∧ b[i + 1]? = some t ∧ 0x68 ≤ t ∧ t ≤ 0x6B

theorem MarkerAt.follower {b : List Byte} {i : Nat} {t : Byte} (h : MarkerAt b i t) : b[i + 1]? = some t := by
  obtain ⟨-, hnext, -⟩ := h
  exact hnext

theorem isTerminator_iff_range {t : Byte} : isTerminator t = true ↔ 0x68 ≤ t ∧ t ≤ 0x6B := by
  rw [isTerminator, Bool.and_eq_true, decide_eq_true_eq, decide_eq_true_eq]

theorem markerAt_cons_zero {z t : Byte} {b : List Byte} :
    MarkerAt (z :: b) 0 t ↔ z = zdle ∧ b.head? = some t ∧ isTerminator t = true := by
  rw [isTerminator_iff_range, List.head?_eq_getElem?, MarkerAt, List.getElem?_cons_zero, Option.some.injEq,
    List.getElem?_cons_succ]

theorem markerAt_cons_succ {z t : Byte} {b : List Byte} {i : Nat} :
    MarkerAt (z :: b) (i + 1) t ↔ MarkerAt b i t := Iff.rfl

theorem scanTerm_cons_of_marker {z t : Byte} {b : List Byte} (h : MarkerAt (z :: b) 0 t) :
    scanTerm (z :: b) = some 0 := by
  obtain ⟨hz, hhead, hterm⟩ := markerAt_cons_zero.mp h
  obtain ⟨r, rfl⟩ := List.head?_eq_some_iff.mp hhead
  rw [scanTerm_cons_cons, if_pos ⟨hz, hterm⟩]

theorem scanTerm_cons_of_no_marker {z : Byte} {b : List Byte} (h : ∀ t, ¬ MarkerAt (z :: b) 0 t) :
    scanTerm (z :: b) = (scanTerm b).map (· + 1) := by
  cases b with
  | nil => rfl
  | cons t b =>
    rw [scanTerm_cons_cons, if_neg]
    exact fun ⟨hz, hterm⟩ => h t (markerAt_cons_zero.mpr ⟨hz, rfl, hterm⟩)

/-- R237: the scan finds a marker that none precedes. -/
theorem scanTerm_of_first_marker {b : List Byte} {i : Nat} {t : Byte} (h : MarkerAt b i t)
    (hfirst : ∀ j < i, ∀ t', ¬ MarkerAt b j t') : scanTerm b = some i := by
  induction b generalizing i with
  | nil => cases h.follower
  | cons z b ih =>
    cases i with
    | zero => exact scanTerm_cons_of_marker h
    | succ i =>
      have hrest : scanTerm b = some i :=
        ih (markerAt_cons_succ.mp h) fun j hj t' hm => hfirst (j + 1) (Nat.succ_lt_succ hj) t' hm
      rw [scanTerm_cons_of_no_marker (hfirst 0 i.succ_pos), hrest, Option.map_some]

theorem scanTerm_of_no_marker {b : List Byte} (h : ∀ j t, ¬ MarkerAt b j t) : scanTerm b = none := by
  induction b with
  | nil => rfl
  | cons z b ih =>
    have hrest : scanTerm b = none := ih fun j t hm => h (j + 1) t hm
    rw [scanTerm_cons_of_no_marker (h 0), hrest, Option.map_none]

theorem markerAt_append (l : List Byte) {t : Byte} (ht : isTerminator t = true) (rest : List Byte) :
    MarkerAt (l ++ zdle :: t :: rest) l.length t := by
  refine ⟨?_, ?_, isTerminator_iff_range.mp ht⟩
  · rw [List.getElem?_append_right le_rfl, Nat.sub_self, List.getElem?_cons_zero]
  · rw [List.getElem?_append_right (Nat.le_add_right _ _), Nat.add_sub_cancel_left, List.getElem?_cons_succ,
      List.getElem?_cons_zero]

/-- R239: behind bytes whose every ZDLE has a canonical follower, the first marker found is the raw one. -/
theorem scanTerm_of_zdleFollowed {l : List Byte} (hl : ZdleFollowed l) {t : Byte} (ht : isTerminator t = true)
    (rest : List Byte) : scanTerm (l ++ zdle :: t :: rest) = some l.length := by
  refine scanTerm_of_first_marker (markerAt_append l ht rest) fun j hj t' ⟨hz, hnext, hrange⟩ => ?_
  rw [List.getElem?_append_left hj] at hz
  obtain ⟨f, hf, hcanonical⟩ := hl j hz
  obtain ⟨hlt, -⟩ := List.getElem?_eq_some_iff.mp hf
  rw [List.getElem?_append_left hlt, hf, Option.some.injEq] at hnext
  have hnot := isTerminator_of_canonical hcanonical
  rw [hnext, isTerminator_iff_range.mpr hrange] at hnot
  cases hnot

/-! ### RX.SCAN (R238) -/

theorem exec_rxScan_of_marker {s : State} {i : Nat} {t : Byte} (hscan : scanTerm s.rxbuf = some i)
    (ht : s.rxbuf[i + 1]? = some t) :
    exec .rxScan s = .next (((s.setArg (BitVec.ofNat 32 i)).setSubt t).finish .ok) := by
  simp only [exec, execRxScan, hscan, List.getD_eq_getElem?_getD, ht, Option.getD_some, State.done_eq]

theorem exec_rxScan_of_no_marker {s : State} (hscan : scanTerm s.rxbuf = none) :
    exec .rxScan s = .next (s.finish .incomplete) := by
  simp only [exec, execRxScan, hscan, State.incomplete_eq]

/-! ### RX.SUB16 and RX.SUB32 by what is found (R240 to R245) -/

/-- The next state once a subpacket of payload `p`, terminator `t` and CRC bytes `got` has been taken off RXBUF
(R240, R244). -/
def State.judgeSub (s : State) (w : CrcWidth) (p : List Byte) (t : Byte) (got : List Byte) : State :=
  if crcOf w (p ++ [t]) ≠ got then s.raiseCrc w (crcOf w (p ++ [t])) got
  else ((s.setObuf p).setSubt t).finish .ok

theorem State.judgeSub_of_own_crc (s : State) (w : CrcWidth) (p : List Byte) (t : Byte) :
    s.judgeSub w p t (crcOf w (p ++ [t])) = ((s.setObuf p).setSubt t).finish .ok := by
  rw [State.judgeSub, if_neg (not_not.mpr rfl)]

theorem acceptSub_of_badEscape {raw : List Byte} (h : zdecode raw = none) (w : CrcWidth) (t : Byte)
    (got : List Byte) (s : State) : acceptSub w raw t got s = .next (s.finish .eBadesc) := by
  rw [acceptSub, h]
  rfl

theorem acceptSub_of_decoded {raw p : List Byte} (h : zdecode raw = some p) (w : CrcWidth) (t : Byte)
    (got : List Byte) (s : State) : acceptSub w raw t got s = .next (s.judgeSub w p t got) := by
  unfold State.judgeSub
  rcases acceptSub_cases w raw t got s with ⟨hnone, -⟩ | ⟨q, hq, hjudged⟩
  · cases hnone.symm.trans h
  · cases hq.symm.trans h
    rcases hjudged with ⟨hcrc, heq⟩ | ⟨hcrc, heq⟩ <;> rw [heq]
    · rw [if_pos hcrc]
    · rw [if_neg (not_not.mpr hcrc)]

section
variable {w : CrcWidth} {s : State} {i u : Nat} {got : List Byte}

/-- R241: no marker yet. -/
theorem takeSub_of_no_marker (hscan : scanTerm s.rxbuf = none) :
    takeSub w s = .next (s.finish .incomplete) := by
  simp only [takeSub, hscan, State.incomplete_eq]

/-- R242: a marker, but too few logical bytes behind it for the CRC. -/
theorem takeSub_of_short_crc (hscan : scanTerm s.rxbuf = some i)
    (hsplice : splice w.bytes (s.rxbuf.drop (i + 2)) = none) :
    takeSub w s = .next (s.finish .incomplete) := by
  simp only [takeSub, hscan, hsplice, State.incomplete_eq]

/-- R240: marker and CRC bytes are there, so the subpacket is consumed and judged. -/
theorem takeSub_of_delimited (hscan : scanTerm s.rxbuf = some i)
    (hsplice : splice w.bytes (s.rxbuf.drop (i + 2)) = some (got, u)) :
    takeSub w s =
      acceptSub w (s.rxbuf.take i) (s.rxbuf.getD (i + 1) 0) got (s.consume (i + 2 + u)) := by
  simp only [takeSub, hscan, hsplice]

/-- R243: the subpacket is gone, and its payload ends in a lone ZDLE. -/
theorem takeSub_of_badEscape (hscan : scanTerm s.rxbuf = some i)
    (hsplice : splice w.bytes (s.rxbuf.drop (i + 2)) = some (got, u))
    (hdec : zdecode (s.rxbuf.take i) = none) :
    takeSub w s = .next ((s.consume (i + 2 + u)).finish .eBadesc) := by
  rw [takeSub_of_delimited hscan hsplice, acceptSub_of_badEscape hdec]

/-- R240, R244: the subpacket is gone, and the CRC decides about its payload. -/
theorem takeSub_of_decoded {t : Byte} {p : List Byte} (hscan : scanTerm s.rxbuf = some i)
    (ht : s.rxbuf[i + 1]? = some t)
    (hsplice : splice w.bytes (s.rxbuf.drop (i + 2)) = some (got, u))
    (hdec : zdecode (s.rxbuf.take i) = some p) :
    takeSub w s = .next ((s.consume (i + 2 + u)).judgeSub w p t got) := by
  rw [takeSub_of_delimited hscan hsplice, acceptSub_of_decoded hdec, List.getD_eq_getElem?_getD, ht,
    Option.getD_some]

end

/-! ### What TX.SUB16 and TX.SUB32 send (R231, R233 to R235) -/

/-- The escaped payload of the subpacket `s` sends. -/
def subBody (s : State) : List Byte := (zencode (ecc s.cfg) (turbo s.cfg) s.lastcode s.ibuf).1

/-- The escaped CRC behind the marker, in the context the payload left (R233). -/
def subTail (w : CrcWidth) (sel : BitVec 2) (s : State) : List Byte :=
  (zencode (ecc s.cfg) (turbo s.cfg) (s.ibuf.getLastD s.lastcode)
    (crcOf w (s.ibuf ++ [terminatorByte sel]))).1

/-- The subpacket TX.SUB16 and TX.SUB32 append. -/
def subFrame (w : CrcWidth) (sel : BitVec 2) (s : State) : List Byte :=
  subBody s ++ [zdle, terminatorByte sel] ++ subTail w sel s

/-- R231: the frame is what the serialiser gives, and LASTCODE the last CRC byte, which is never missing. -/
theorem serSub_eq (w : CrcWidth) (sel : BitVec 2) (s : State) :
    serSub w s.ibuf (terminatorByte sel) (ecc s.cfg) (turbo s.cfg) s.lastcode =
      (subFrame w sel s,
        (crcOf w (s.ibuf ++ [terminatorByte sel])).getLastD (s.ibuf.getLastD s.lastcode)) := by
  simp only [serSub, zencode_last]
  rfl

/-- R234, R235, with the subpacket as one piece. -/
theorem sendSub_eq (w : CrcWidth) (sel : BitVec 2) (s : State) :
    sendSub w sel s = .next { s with
      txout := s.txout ++ subFrame w sel s,
      lastcode := (crcOf w (s.ibuf ++ [terminatorByte sel])).getLastD (s.ibuf.getLastD s.lastcode),
      status := 0x00 } := by
  rw [sendSub, serSub_eq]
  rfl

/-- R175: the marker's bytes are no flow-control bytes either. -/
theorem subFrame_no_flowControl (w : CrcWidth) (sel : BitVec 2) (s : State) :
    ∀ b ∈ subFrame w sel s, isFlowControl b = false := by
  have hmarker : ∀ b ∈ [zdle, terminatorByte sel], isFlowControl b = false :=
    List.forall_mem_cons.mpr ⟨rfl, List.forall_mem_singleton.mpr (terminatorByte_plain sel)⟩
  exact List.forall_mem_append.mpr
    ⟨List.forall_mem_append.mpr ⟨zencode_no_flowControl _ _ _ _, hmarker⟩, zencode_no_flowControl _ _ _ _⟩

/-! ### The round trip (R248) -/

/-- R248: the parser of the sender's width takes exactly the subpacket off the front of RXBUF. -/
theorem takeSub_of_subFrame {w : CrcWidth} {sel : BitVec 2} {s t : State} {u : List Byte}
    (hbuf : t.rxbuf = subFrame w sel s ++ u) :
    takeSub w t = .next ((((t.setRxbuf u).setObuf s.ibuf).setSubt (terminatorByte sel)).finish .ok) := by
  have hsplit : t.rxbuf = subBody s ++ zdle :: terminatorByte sel :: (subTail w sel s ++ u) := by
    rw [hbuf, subFrame]
    simp only [List.append_assoc, List.cons_append, List.nil_append]
  have hterm : isTerminator (terminatorByte sel) = true := (isTerminator_iff _).mpr ⟨sel, rfl⟩
  have hfollowed : ZdleFollowed (subBody s) := zencode_zdleFollowed (ecc s.cfg) (turbo s.cfg) s.lastcode s.ibuf
  have hscan : scanTerm t.rxbuf = some (subBody s).length := by
    rw [hsplit, scanTerm_of_zdleFollowed hfollowed hterm]
  have ht : t.rxbuf[(subBody s).length + 1]? = some (terminatorByte sel) := by
    rw [hsplit]
    exact (markerAt_append (subBody s) hterm _).follower
  have hrest : t.rxbuf.drop ((subBody s).length + 2) = subTail w sel s ++ u := by
    rw [hsplit, List.drop_append, Nat.add_sub_cancel_left, List.drop_eq_nil_of_le (Nat.le_add_right _ _)]
    rfl
  have hsplice : splice w.bytes (t.rxbuf.drop ((subBody s).length + 2)) =
      some (crcOf w (s.ibuf ++ [terminatorByte sel]), (subTail w sel s).length) := by
    rw [hrest, ← crcOf_length w (s.ibuf ++ [terminatorByte sel])]
    exact splice_zencode_append ..
  have hdec : zdecode (t.rxbuf.take (subBody s).length) = some s.ibuf := by
    rw [hsplit, List.take_left]
    exact zdecode_zencode ..
  have hgone : t.consume ((subBody s).length + 2 + (subTail w sel s).length) = t.setRxbuf u := by
    rw [State.consume_eq, ← List.drop_drop, hrest, List.drop_left]
  rw [takeSub_of_decoded hscan ht hsplice hdec, hgone, State.judgeSub_of_own_crc]

/-- R248, for either width. -/
theorem sendSub_roundTrip (w : CrcWidth) (s : State) (sel : BitVec 2) (u : List Byte) :
    ∃ frame l,
      sendSub w sel s = .next { s with txout := s.txout ++ frame, lastcode := l, status := 0x00 } ∧
      (∀ b ∈ frame, isFlowControl b = false) ∧
      takeSub w { s with rxbuf := frame ++ u } =
        .next { s with rxbuf := u, obuf := s.ibuf, subt := terminatorByte sel, status := 0x00 } :=
  ⟨subFrame w sel s, _, sendSub_eq w sel s, subFrame_no_flowControl w sel s,
    takeSub_of_subFrame (s := s) (t := { s with rxbuf := subFrame w sel s ++ u }) rfl⟩

/-! ### The obligations -/

/-- Settles O58: both widths are `sendSub_roundTrip`. -/
theorem subpacketRoundTrip : Obligations.SubpacketRoundTrip :=
  fun s sel u => ⟨sendSub_roundTrip .w16 s sel u, sendSub_roundTrip .w32 s sel u⟩

/-- Settles O23: the obligation's marker is `MarkerAt`, and the scan finds the first. -/
theorem scanCommandRuns : Obligations.ScanCommandRuns := by
  refine ⟨by decide, fun s i t hmarker hfirst => ?found, fun s hno => ?none⟩
  case found => exact exec_rxScan_of_marker (scanTerm_of_first_marker hmarker hfirst) (MarkerAt.follower hmarker)
  case none => exact exec_rxScan_of_no_marker (scanTerm_of_no_marker hno)

/-- Settles O22: LASTCODE is the last source byte encoded (R40), the last of the CRC; padding is R90 (c). -/
theorem subpacketsSent : Obligations.SubpacketsSent := by
  refine ⟨fun sel => ⟨?word16, ?word32⟩, fun sel s => ?sent16, fun sel s => ?sent32,
    fun cw s hop hpad => ?illegal⟩
  case word16 => exact decodeCommand_or_selector (op := 0x34) (fun _ => rfl) (fun _ => rfl) sel
  case word32 => exact decodeCommand_or_selector (op := 0x35) (fun _ => rfl) (fun _ => rfl) sel
  case sent16 => exact sendSub_eq .w16 sel s
  case sent32 => exact sendSub_eq .w32 sel s
  case illegal =>
    have hS : (opcode cw).toNat ∈ opcodesS := by
      change (cw.extractLsb' 8 8).toNat ∈ opcodesS
      rcases hop with hop | hop <;> rw [hop] <;> decide
    rw [decodeCommand_of_padding hS hpad]
    rfl

/-- Settles O24: each clause is one path of R240. -/
theorem subpacket16Outcomes : Obligations.Subpacket16Outcomes :=
  ⟨by decide, fun _ => takeSub_of_no_marker (w := .w16), fun _ _ => takeSub_of_short_crc (w := .w16),
    fun _ _ _ _ _ => takeSub_of_badEscape (w := .w16), fun _ _ _ _ _ _ _ => takeSub_of_decoded (w := .w16)⟩

/-- Settles O25: each clause is one path of R240 at four CRC bytes. -/
theorem subpacket32Outcomes : Obligations.Subpacket32Outcomes :=
  ⟨by decide, fun _ => takeSub_of_no_marker (w := .w32), fun _ _ => takeSub_of_short_crc (w := .w32),
    fun _ _ _ _ _ _ _ => takeSub_of_badEscape (w := .w32),
    fun _ _ _ _ _ _ _ _ _ => takeSub_of_decoded (w := .w32)⟩

end Sys2Proof.Machine

namespace Sys2Proof.Machine

/-! ### Codes a command ends in (R280) -/

/-- An outcome is a next state whose STATUS is a code of `row`; E_OVERFLOW needs a finite capacity (R60, R262). -/
inductive EndsIn (row : List Byte) (p : Config.Params) : Outcome → Prop
  | finish {t : State} (c : StatusCode) (hc : c.code ∈ row ∧ c ≠ .eOverflow) : EndsIn row p (.next (t.finish c))
  | overflow {t : State} (hrow : 0x87 ∈ row) (hcap : p.ibufCap ≠ none ∨ p.rxbufCap ≠ none) :
      EndsIn row p (.next (t.finish .eOverflow))

/-- Every row but the illegal word's begins with OK. -/
theorem EndsIn.ok {codes : List Byte} {p : Config.Params} {t : State} :
    EndsIn (0x00 :: codes) p (.next (t.finish .ok)) := .finish .ok ⟨List.mem_cons_self, by decide⟩

/-- What `EndsIn` says of STATUS. -/
theorem EndsIn.status {row : List Byte} {p : Config.Params} {t : State} (h : EndsIn row p (.next t)) :
    t.status ∈ row ∧ (t.status = 0x87 → p.ibufCap ≠ none ∨ p.rxbufCap ≠ none) := by
  cases h with
  | finish c hc =>
    obtain ⟨hrow, hne⟩ := hc
    have hcode : c.code = 0x87 → c = .eOverflow := by cases c <;> decide
    exact ⟨hrow, fun h => absurd (hcode h) hne⟩
  | overflow hrow hcap => exact ⟨hrow, fun _ => hcap⟩

section
variable (s : State) {p : Config.Params}

theorem pushReceived_endsIn (b : Byte) : EndsIn [0x00, 0x87] s.params (.next (pushReceived b s)) := by
  rcases pushReceived_cases b s with ⟨-, h⟩ | ⟨-, hcap, h⟩ | ⟨-, -, h⟩ <;> rw [h]
  · exact .ok
  · exact .overflow (by decide) (.inr (by simp [hcap]))
  · exact .ok

/-- R96: STATUS after a feed is that of the last push. -/
theorem feed_endsIn {bytes : List Byte} (hne : bytes ≠ []) :
    EndsIn [0x00, 0x87] s.params (.next (feed bytes s)) := by
  obtain ⟨init, b, rfl⟩ := (List.eq_nil_or_concat' bytes).resolve_left hne
  rw [feed_append, ← (KeepsBounds.feed init s).params]
  exact pushReceived_endsIn (feed init s) b

theorem execIbPush_endsIn (b : Byte) : EndsIn [0x00, 0x87] s.params (execIbPush b s) := by
  unfold execIbPush
  split
  next hfull => exact .overflow (by decide) (.inl (by simp [isFull_iff.mp hfull]))
  next => exact .ok

theorem execIbLdob_endsIn : EndsIn [0x00, 0x87] s.params (execIbLdob s) := by
  unfold execIbLdob
  split
  next hlong =>
    obtain ⟨cap, hcap, -⟩ := exceeds_iff.mp hlong
    exact .overflow (by decide) (.inl (by simp [hcap]))
  next => exact .ok

theorem verifyTail_endsIn (w : CrcWidth) : EndsIn [0x00, 0x82, 0x88] p (verifyTail w s) := by
  rcases verifyTail_cases w s with ⟨-, h⟩ | ⟨data, got, -, -, ⟨-, h⟩ | ⟨-, h⟩⟩ <;> rw [h]
  · exact .finish .eLen (by decide)
  · exact .ok
  · exact .finish .eCrc (by decide)

theorem takeHeader_endsIn (k : StartKind) (w : CrcWidth) (x : HeaderSection) :
    EndsIn [0x00, 0x01, 0x82, 0x83, 0x84, 0x85] p (takeHeader k w x s) := by
  rcases takeHeader_cases k w x s with ⟨-, h⟩ | ⟨used, -, h⟩ | ⟨l, used, -, h⟩ <;> rw [h]
  · exact .finish .incomplete (by decide)
  · exact .finish .eHexfmt (by decide)
  · rcases acceptHeader_cases k w l (s.setRxbuf (s.rxbuf.drop used)) with ⟨-, h⟩ | ⟨-, -, h⟩ | ⟨-, -, h⟩ <;>
      rw [h]
    · exact .finish .eCrc (by decide)
    · exact .finish .eUnsupported (by decide)
    · exact .ok

theorem execRxHdr_endsIn : EndsIn [0x00, 0x01, 0x82, 0x83, 0x84, 0x85] p (execRxHdr s) := by
  rcases execRxHdr_cases s with ⟨-, h⟩ | ⟨-, h⟩ | ⟨-, h⟩ | ⟨-, h⟩ | ⟨-, -, h⟩ <;> rw [h]
  · exact takeHeader_endsIn s _ _ _
  · exact takeHeader_endsIn s _ _ _
  · exact takeHeader_endsIn s _ _ _
  · exact .finish .incomplete (by decide)
  · exact .finish .eNoframe (by decide)

theorem takeSub_endsIn (w : CrcWidth) : EndsIn [0x00, 0x01, 0x82, 0x86] p (takeSub w s) := by
  rcases takeSub_cases w s with ⟨-, h⟩ | ⟨n, got, u, -, -, h⟩ <;> rw [h]
  · exact .finish .incomplete (by decide)
  · rcases acceptSub_cases w (s.rxbuf.take n) (s.rxbuf.getD (n + 1) 0) got
      (s.setRxbuf (s.rxbuf.drop (n + 2 + u))) with ⟨-, h⟩ | ⟨_, -, ⟨-, h⟩ | ⟨-, h⟩⟩ <;> rw [h]
    · exact .finish .eBadesc (by decide)
    · exact .finish .eCrc (by decide)
    · exact .ok

theorem execRxSplice_endsIn (n : Byte) : EndsIn [0x00, 0x01] p (execRxSplice n s) := by
  unfold execRxSplice
  split
  · exact .finish .incomplete (by decide)
  · exact .ok

/-- R192: each selector TX.HEX is well-formed with has a line ending, so the frame is sent. -/
theorem exec_txHex_endsIn {sel : BitVec 2} (hsel : sel ≠ 3) : EndsIn [0x00] p (exec (.txHex sel) s) := by
  obtain ⟨eol, -, heol, -⟩ := eolBytes_arrives hsel
  rw [exec_txHex_of_eol heol s]
  exact .ok

/-- R280: every well-formed instruction ends in a code of its row. -/
theorem exec_endsIn {i : Instr} (hwf : i.wellFormed = true) : EndsIn (outcomeMatrix i) s.params (exec i s) := by
  cases i with
  | nop | cfg | zencRst | ibClr | argSet0 | argSet1 | argSet2 | argSet3 | pack32 | hexEnc | crc16 | crc32 | zenc
  | zcls | hdrSet0 | hdrSet1 | hdrSet2 | hdrSet3 | hdrSet4 | txBin16 | txBin32 | txSub16 | txSub32 | rxClr
  | rxTrim => exact .ok
  | rst => exact .ok (t := s.resetBlock)
  | pack16 | unpack16 | unpack32 | hexDec | zdec | rxScan =>
    dsimp only [exec, execPack16, execUnpack16, execUnpack32, execHexDec, execZdec, execRxScan]
    split
    · exact .finish _ (by decide)
    · exact .ok
  | ibPush b => exact execIbPush_endsIn s b
  | ibLdob => exact execIbLdob_endsIn s
  | vfy16 | vfy32 => exact verifyTail_endsIn s _
  | txHex sel => exact exec_txHex_endsIn s (bne_iff_ne.mp hwf)
  | rxPush b => exact pushReceived_endsIn s b
  | rxHdr => exact execRxHdr_endsIn s
  | rxSub16 | rxSub32 => exact takeSub_endsIn s _
  | rxSplice n => exact execRxSplice_endsIn s n
  | illegal => exact .finish .eIllegal ⟨List.mem_cons_self, by decide⟩
  | wirePfxHex | wirePfxBin16 | wirePfxBin32 | wireEol0 | wireEol1 | wireEol2 | wireTerm | wireEsc =>
    exact feed_endsIn s (List.cons_ne_nil _ _)

end

/-! ### Steps that run no instruction (log 1, log 3) -/

section
variable {s : State} {rest : List HostAction}

/-- R279: an idle block keeps all its state. -/
theorem step_of_idle (h : s.pending = []) : step s = .next s := by
  unfold step; rw [h]

/-- R290: the reset input. -/
theorem step_of_resetInput (h : s.pending = .resetInput :: rest) :
    step s = .next (s.withPending rest).resetBlock := by
  unfold step; rw [h]

/-- R96: line bytes that are no wire pattern are RX.FEED all the same. -/
theorem step_of_unrecognised {bytes : List Byte} (h : s.pending = .present (.wire bytes) :: rest)
    (hbytes : decodeWire bytes = none) : step s = .next (feed bytes (s.withPending rest)) := by
  have hdecode : decode (.wire bytes) = .error (.notAWirePattern bytes) := by rw [decode, hbytes]
  unfold step
  rw [h]
  simp only [hdecode, feedUnrecognised]

end

/-! ### The obligations -/

/-- Settles O35: each instruction's endings are the codes of its row. -/
theorem outcomesAreInTheMatrix : Obligations.OutcomesAreInTheMatrix := by
  intro i s t hwf h
  have hends : EndsIn (outcomeMatrix i) s.params (.next t) := h ▸ exec_endsIn s hwf
  exact hends.status

/-- Settles O29: a feed of unrecognised bytes is the run of their pushes. -/
theorem stepWithoutAnInstruction : Obligations.StepWithoutAnInstruction := by
  refine ⟨fun _ => step_of_idle, fun s rest h => ?reset, fun s bytes rest h hbytes => ?fed⟩
  case reset => exact step_of_resetInput h
  case fed => rw [step_of_unrecognised h hbytes, ← execAll_map_rxPush]; rfl

end Sys2Proof.Machine
